-- ==== Sys2Proof/Word.lean ====
section
/-! DEFINITION. The widths of the block's values (00_scope.md R13, 30_encoding.md R50). -/

namespace Sys2Proof

/-- A byte, `u8` of R13: a wire byte, an OP value, a 5.3 fixed-point number. -/
abbrev Byte := BitVec 8

/-- A 16-bit value, `u16` of R13: a CRC, a command opcode, a telemetry status or current. -/
abbrev Half := BitVec 16

/-- A 32-bit value, `u32` of R13: a binary32 operand, the response field R. -/
abbrev Word32 := BitVec 32

/-- A 48-bit value: operand C of the operation word (R50). -/
abbrev Word48 := BitVec 48

/-- The operation word of R50: 104 bits, bit 0 least significant. -/
abbrev OpWord := BitVec 104

end Sys2Proof
end

