-- ==== Sys2Proof/Syntax.lean ====
section
/-! DEFINITION. The ten operations of the block (30_encoding.md R56), each with the operand bits it reads and no others
(R51). A reserved OP value is no operation (R57): the decoder names it, and the step reports it. -/

namespace Sys2Proof

/-- The operations of R56, in the order of the opcode table, with the operands each reads. -/
inductive Instr where
  /-- RX_BYTE: append one received byte, A[7:0], to the partial command frame (42_framer.md R121). -/
  | rxByte (b : Byte)
  /-- RX_RESET: empty the partial command frame (42_framer.md R122). -/
  | rxReset
  /-- CRC_INIT: start a new CRC (40_crc.md R84). -/
  | crcInit
  /-- CRC_FEED: add one byte, A[7:0], to the running CRC (40_crc.md R85). -/
  | crcFeed (b : Byte)
  /-- CRC_READ: read the CRC of the bytes fed (40_crc.md R86). -/
  | crcRead
  /-- CRC_CHECK: compare the running CRC with a declared CRC, B[15:0] (40_crc.md R87). -/
  | crcCheck (declared : Half)
  /-- FX_ENC: binary32, A[31:0], to 5.3 fixed point (41_fixed_point.md R106). -/
  | fxEnc (f : Word32)
  /-- FX_DEC: 5.3 fixed point, A[7:0], to binary32 (41_fixed_point.md R108). -/
  | fxDec (x : Byte)
  /-- CMD_ENC: build a command frame for the command opcode A[15:0] (42_framer.md R127). -/
  | cmdEnc (opcode : Half)
  /-- TLM_ENC: build a telemetry frame from its fields (42_framer.md R130, 30_encoding.md R67 to R69). -/
  | tlmEnc (status : Half) (voltage : Byte) (current : Half) (speed magX magY magZ gyroX gyroY gyroZ : Byte)
deriving DecidableEq, Repr

end Sys2Proof
end

