-- ==== Sys2Proof/WellFormed.lean ====
section
/-! DEFINITION. What is well formed. An operation is, whatever its operands (30_encoding.md R52), since each operand is held at
exactly the width R56 gives it. What can be ill-formed is the written notation of R70 to R75, whose operands are plain
numbers: its lines are here, with the ranges R70 gives their operands. -/

namespace Sys2Proof

/-- Every operation is well formed: no operand value makes an operation word illegal (R52). -/
def Instr.wellFormed : Instr → Bool
  | .rxByte _ | .rxReset | .crcInit | .crcFeed _ | .crcRead | .crcCheck _ | .fxEnc _ | .fxDec _ | .cmdEnc _
  | .tlmEnc _ _ _ _ _ _ _ _ _ _ => true

/-- A float literal of R70. -/
inductive FloatLit where
  /-- `0x` followed by 8 hex digits: raw binary32 bits. -/
  | raw (bits : Nat)
  /-- A decimal literal, `digits` times ten to the `exp10`, negated when `neg`. -/
  | decimal (neg : Bool) (digits : Nat) (exp10 : Int)
deriving DecidableEq, Repr

/-- One line of the notation: the ten mnemonics of R70 and the four pseudo-operations of R72 to R75. -/
inductive AsmLine where
  | crcInit
  | crcFeed (b : Nat)
  | crcRead
  | crcCheck (d : Nat)
  | fxEnc (f : FloatLit)
  | fxDec (x : Int)
  | rxByte (b : Nat)
  | rxReset
  | cmdEnc (o : Nat)
  | tlmEnc (s v i sp mx my mz gx gy gz : Nat)
  | crcOf (bs : List Nat)
  | crcVerify (bs : List Nat) (d : Nat)
  | rxFrame (bs : List Nat)
  | tlmStatus (s : Nat)
deriving DecidableEq, Repr

/-- An 8-bit value (R70). -/
def inU8 (n : Nat) : Bool := decide (n < 256)

/-- A 16-bit value (R70). -/
def inU16 (n : Nat) : Bool := decide (n < 65536)

/-- The operand of `fx.dec`: -128 to 127, or 0x00 to 0xFF (R70). -/
def inFxByte (n : Int) : Bool := decide (-128 ≤ n ∧ n ≤ 255)

/-- A raw float literal has 8 hex digits (R70). -/
def FloatLit.wellFormed : FloatLit → Bool
  | .raw bits => decide (bits < 4294967296)
  | .decimal _ _ _ => true

/-- The operand ranges of R70 and R72 to R75. -/
def AsmLine.wellFormed : AsmLine → Bool
  | .crcInit | .crcRead | .rxReset => true
  | .crcFeed b | .rxByte b => inU8 b
  | .crcCheck d => inU16 d
  | .fxEnc f => f.wellFormed
  | .fxDec x => inFxByte x
  | .cmdEnc o => inU16 o
  | .tlmEnc s v i sp mx my mz gx gy gz => inU16 s && inU16 i && [v, sp, mx, my, mz, gx, gy, gz].all inU8
  | .crcOf bs | .rxFrame bs => bs.all inU8
  | .crcVerify bs d => bs.all inU8 && inU16 d
  | .tlmStatus s => inU16 s

end Sys2Proof
end

