-- ==== Sys2Proof/Decode.lean ====
section
/-! DEFINITION. The decoder of operation words, total on all 2^104 of them, and the encoder
(30_encoding.md R50 to R52, R56, R57, R67 to R70). -/

namespace Sys2Proof

/-- OP, bits 7:0 (R50). -/
def opField (w : OpWord) : Byte := w.extractLsb' 0 8

/-- Operand A, bits 39:8 (R50). -/
def aField (w : OpWord) : Word32 := w.extractLsb' 8 32

/-- Operand B, bits 55:40 (R50). -/
def bField (w : OpWord) : Half := w.extractLsb' 40 16

/-- Operand C, bits 103:56 (R50). -/
def cField (w : OpWord) : Word48 := w.extractLsb' 56 48

/-- The word with the four given fields (R50). -/
def opWord (op : Byte) (a : Word32) (b : Half) (c : Word48) : OpWord := c ++ b ++ a ++ op

/-- What an operation word is: one of the ten operations, or a reserved OP value, by its value (R52, R57). -/
inductive Decoded where
  | instr (i : Instr)
  | reserved (op : Byte)
deriving DecidableEq, Repr

/-- The operand fields of TLM_ENC, from A, B and C (R67 to R69). -/
def tlmOperands (a : Word32) (b : Half) (c : Word48) : Instr :=
  .tlmEnc
    (status := a.extractLsb' 0 16) (current := a.extractLsb' 16 16)
    (voltage := b.extractLsb' 0 8) (speed := b.extractLsb' 8 8)
    (magX := c.extractLsb' 0 8) (magY := c.extractLsb' 8 8) (magZ := c.extractLsb' 16 8)
    (gyroX := c.extractLsb' 24 8) (gyroY := c.extractLsb' 32 8) (gyroZ := c.extractLsb' 40 8)

/-- The decoder: the OP field alone selects the operation (R52), which takes the operand bits R56 lists for it and no
others (R51). -/
def decode (w : OpWord) : Decoded :=
  match opField w with
  | 0x01#8 => .instr (.rxByte ((aField w).extractLsb' 0 8))
  | 0x02#8 => .instr .rxReset
  | 0x10#8 => .instr .crcInit
  | 0x11#8 => .instr (.crcFeed ((aField w).extractLsb' 0 8))
  | 0x12#8 => .instr .crcRead
  | 0x13#8 => .instr (.crcCheck (bField w))
  | 0x20#8 => .instr (.fxEnc (aField w))
  | 0x21#8 => .instr (.fxDec ((aField w).extractLsb' 0 8))
  | 0x30#8 => .instr (.cmdEnc ((aField w).extractLsb' 0 16))
  | 0x31#8 => .instr (tlmOperands (aField w) (bField w) (cField w))
  | op => .reserved op

/-- The OP value of each operation (R56). -/
def Instr.op : Instr → Byte
  | .rxByte _ => 0x01
  | .rxReset => 0x02
  | .crcInit => 0x10
  | .crcFeed _ => 0x11
  | .crcRead => 0x12
  | .crcCheck _ => 0x13
  | .fxEnc _ => 0x20
  | .fxDec _ => 0x21
  | .cmdEnc _ => 0x30
  | .tlmEnc _ _ _ _ _ _ _ _ _ _ => 0x31

/-- Operand A as the assembler builds it, the bits no operand uses 0 (R70, R67). -/
def Instr.a : Instr → Word32
  | .rxByte b | .crcFeed b | .fxDec b => b.setWidth 32
  | .fxEnc f => f
  | .cmdEnc o => o.setWidth 32
  | .tlmEnc status _ current _ _ _ _ _ _ _ => current ++ status
  | .rxReset | .crcInit | .crcRead | .crcCheck _ => 0

/-- Operand B as the assembler builds it (R70, R68). -/
def Instr.b : Instr → Half
  | .crcCheck d => d
  | .tlmEnc _ voltage _ speed _ _ _ _ _ _ => speed ++ voltage
  | .rxByte _ | .rxReset | .crcInit | .crcFeed _ | .crcRead | .fxEnc _ | .fxDec _ | .cmdEnc _ => 0

/-- Operand C as the assembler builds it (R70, R69). -/
def Instr.c : Instr → Word48
  | .tlmEnc _ _ _ _ magX magY magZ gyroX gyroY gyroZ => gyroZ ++ gyroY ++ gyroX ++ magZ ++ magY ++ magX
  | .rxByte _ | .rxReset | .crcInit | .crcFeed _ | .crcRead | .crcCheck _ | .fxEnc _ | .fxDec _ | .cmdEnc _ => 0

/-- The encoder: the word the assembler builds for an operation (R70). -/
def encode (i : Instr) : OpWord := opWord i.op i.a i.b i.c

/-- The bits of the operation word that an operation reads: OP, and the operand bits R56 lists for it. -/
def Instr.readMask : Instr → OpWord
  | .rxByte _ | .crcFeed _ | .fxDec _ => opWord 0xFF 0x000000FF 0 0
  | .rxReset | .crcInit | .crcRead => opWord 0xFF 0 0 0
  | .crcCheck _ => opWord 0xFF 0 0xFFFF 0
  | .fxEnc _ => opWord 0xFF 0xFFFFFFFF 0 0
  | .cmdEnc _ => opWord 0xFF 0x0000FFFF 0 0
  | .tlmEnc _ _ _ _ _ _ _ _ _ _ => opWord 0xFF 0xFFFFFFFF 0xFFFF 0xFFFFFFFFFFFF

/-- The operation word whose low `nbits` bits are those of `w` and whose other bits are 0: how a row of the opcode table
is written out as a word. The table numbers the bits as R50 does, so there is no byte order to choose. -/
def tableOpWord (nbits w : Nat) : OpWord := BitVec.ofNat 104 (w % 2 ^ nbits)

/-- The operation the decoder reads from an opcode-table word; none for a reserved OP. -/
def decodeTableWord (nbits w : Nat) : Option Instr :=
  match decode (tableOpWord nbits w) with
  | .instr i => some i
  | .reserved _ => none

end Sys2Proof
end

