-- ==== Sys2Proof/Machine/Operands.lean ====
section
/-! DEFINITION. The value notation of the rules (00_scope.md R13, R15): the halves of a 16-bit value, a signed byte,
bit order. -/

namespace Sys2Proof.Machine

/-- `lo8(v)` (R15). -/
def lo8 (v : Half) : Byte := v.extractLsb' 0 8

/-- `hi8(v)` (R15). -/
def hi8 (v : Half) : Byte := v.extractLsb' 8 8

/-- `LE16(lo, hi)`: the 16-bit value whose little-endian bytes are `lo`, then `hi` (R15, 20_memory.md R36). -/
def le16 (lo hi : Byte) : Half := lo.setWidth 16 ||| (hi.setWidth 16 <<< 8)

/-- The two wire bytes of a 16-bit field, little-endian (20_memory.md R36). -/
def wire16 (v : Half) : List Byte := [lo8 v, hi8 v]

/-- `s8val(b)`: a byte read as two's complement (R13). -/
def s8val (b : Byte) : Int := b.toInt

/-- `byte(n)`: an integer modulo 256 (R13). -/
def byteOf (n : Int) : Byte := BitVec.ofInt 8 n

/-- `zext_16` of a byte (R13). -/
def zext16 (b : Byte) : Half := b.setWidth 16

/-- `zext_32` (R13). -/
def zext32 (n : Nat) (v : BitVec n) : Word32 := v.setWidth 32

/-- `reflect_N(v)`: the bits of `v` in reverse order (R15). -/
def reflect (n : Nat) (v : BitVec n) : BitVec n := v.reverse

end Sys2Proof.Machine
end

