-- ==== Sys2Proof/Config.lean ====
section
/-! DEFINITION. The parameters of the block (00_scope.md R5 to R10), fixed when it is built (10_state.md R27). -/

namespace Sys2Proof

/-- COMMAND_LEN, the number of bytes of a command frame: 3 or 4 and nothing else (R5, 93_implementation_defined.md I2). -/
inductive CommandLen where
  | three
  | four
deriving DecidableEq, Repr

/-- COMMAND_LEN as a number (R5). -/
def CommandLen.bytes : CommandLen → Nat
  | .three => 3
  | .four => 4

/-- The legal values of COMMAND_LEN: every other number, 2 among them, is refused (90_conflicts.md C1). -/
def CommandLen.ofNat? : Nat → Option CommandLen
  | 3 => some .three
  | 4 => some .four
  | _ => none

/-- OPCODE_BYTES = COMMAND_LEN - 2 (R6). -/
def CommandLen.opcodeBytes (n : CommandLen) : Nat := n.bytes - 2

/-- The five parameters of the CRC-16 algorithm (R8). -/
structure CrcParams where
  /-- CRC_POLY: the generator polynomial, its x^16 term implied. -/
  poly : Half
  /-- CRC_INIT: the initial register value. -/
  init : Half
  /-- CRC_REFIN: each input byte is bit-reversed before it enters the register. -/
  refin : Bool
  /-- CRC_REFOUT: the register is bit-reversed before the final XOR. -/
  refout : Bool
  /-- CRC_XOROUT: XORed into the result. -/
  xorout : Half
deriving DecidableEq, Repr

/-- FIX_ROUND_TIES: what `round` does with a value halfway between two integers (R9). -/
inductive RoundTies where
  | away
  | even
deriving DecidableEq, Repr

/-- FIX_OVF_MODE: what the fixed-point encoder returns out of range (R10). -/
inductive OvfMode where
  | sat
  | wrap
deriving DecidableEq, Repr

/-- All the parameters of the block (R5, R8, R9, R10). -/
structure Config where
  commandLen : CommandLen
  crc : CrcParams
  roundTies : RoundTies
  ovfMode : OvfMode
deriving DecidableEq, Repr

/-- CRC-16/IBM-3740, the algorithm this spec takes (R8). -/
def CrcParams.ibm3740 : CrcParams where
  poly := 0x1021
  init := 0xFFFF
  refin := false
  refout := false
  xorout := 0x0000

/-- The values this spec takes for the hardware (R5, R8, R9, R10). -/
def Config.spec : Config where
  commandLen := .four
  crc := .ibm3740
  roundTies := .away
  ovfMode := .sat

/-- PACKET_LEN, the length of the telemetry frame, and the number of bytes of OUT (R7, R53). -/
abbrev packetLen : Nat := 14

end Sys2Proof
end

