-- ==== Sys2Proof/Machine/State.lean ====
section
/-! DEFINITION. The state of the block (10_state.md R20), its two ports (30_encoding.md R50, R53), its reasons to stop, and
reset (70_reset_and_hazards.md R181). -/

namespace Sys2Proof.Machine

/-- The response statuses of R54; their codes are `Status.code`. -/
inductive Status where
  | ok
  | pending
  | frameOk
  | frameCrcErr
  | flushPartial
  | fixOvf
  | crcMismatch
  | illegalOp
deriving DecidableEq, Repr

/-- The response port (R53): ST, R, OUTLEN and the fourteen bytes of OUT. -/
structure Response where
  st : Byte
  r : Word32
  outlen : BitVec 4
  out : Vector Byte packetLen
deriving DecidableEq, Repr

/-- What reaches the block between two steps: an operation word on the operation port (R50), or the platform's reset, which
may come between any two operations (R180). -/
inductive Input where
  | op (w : OpWord)
  | reset
deriving DecidableEq, Repr

/-- The block. `rxbuf`, `rxcnt` and `crcAcc` are its whole state (R20); the rest are its configuration and its two ports. -/
structure State where
  /-- The parameters, fixed when the block is built: no step changes them (R27, R182; DESIGN CHOICE, log entry 1). -/
  config : Config
  /-- RXBUF (R21). Element 3 exists only when COMMAND_LEN = 4 (DESIGN CHOICE, log entry 5). -/
  rxbuf : Vector Byte 4
  /-- RXCNT: the number of bytes of the partial frame (R22). -/
  rxcnt : BitVec 3
  /-- CRC_ACC: the register of the streaming CRC engine (R23). -/
  crcAcc : Half
  /-- The response port: the response of the last step, which no operation reads (R29, R53; DESIGN CHOICE, log entry 6). -/
  response : Option Response
  /-- What the requesters and the platform present, in the order the port accepts it (R25, R45; DESIGN CHOICE, log
  entry 7). -/
  inputs : List Input
deriving DecidableEq, Repr

/-- The reasons to stop with a fault. There are none: the block raises no exception and has no fault state, and every
condition is reported in the response (R150, R194). Safe or unsafe does not arise: nobody raises one (log entry 13). -/
inductive Fault : Type
deriving DecidableEq, Repr

/-- The reasons to refuse. -/
inductive Refusal where
  /-- An operation of the table without a meaning yet, by its mnemonic; raised by an arm of `exec` only. Safe. No arm
  raises it now. -/
  | notModelled (mnemonic : String)
deriving DecidableEq, Repr

/-- The state right after reset, of a block built with the parameters `c`, with `inputs` still to come (R33, R181). The
bytes of RXBUF, which the spec leaves unspecified and unobservable, are 0 (DESIGN CHOICE, log entry 3). -/
def State.resetWith (c : Config) (inputs : List Input) : State where
  config := c
  rxbuf := Vector.replicate 4 0
  rxcnt := 0
  crcAcc := c.crc.init
  response := none
  inputs := inputs

/-- The machine right after reset, with the parameters this spec takes (log entry 2) and nothing presented yet. -/
def State.reset : State := State.resetWith Config.spec []

end Sys2Proof.Machine
end

