-- ==== Sys2Proof/Machine/Flags.lean ====
section
/-! DEFINITION. The block has no flags (10_state.md R26). What an operation reports instead is its response: the status codes
of 30_encoding.md R54 and how a response is made (R53, R55). -/

namespace Sys2Proof.Machine

/-- The status codes (R54). -/
def Status.code : Status → Byte
  | .ok => 0x00
  | .pending => 0x01
  | .frameOk => 0x02
  | .frameCrcErr => 0x03
  | .flushPartial => 0x04
  | .fixOvf => 0x05
  | .crcMismatch => 0x06
  | .illegalOp => 0xFF

/-- The class column of R54: whether a status reports an error (60_exceptions.md R151 to R156). -/
def Status.isError : Status → Bool
  | .ok | .pending | .frameOk => false
  | .frameCrcErr | .flushPartial | .fixOvf | .crcMismatch | .illegalOp => true

/-- `respond(ST, R, OUT)`: OUTLEN is the length of OUT, and the bytes of OUT from OUTLEN on are 0 (R15, R53, R55). -/
def mkResponse (st : Status) (r : Word32) (out : List Byte) : Response where
  st := st.code
  r := r
  outlen := BitVec.ofNat 4 out.length
  out := Vector.ofFn fun i => out.getD i.val 0

/-- The valid bytes of OUT: the first OUTLEN of them, in wire order (R53, 20_memory.md R37). -/
def Response.bytes (resp : Response) : List Byte := resp.out.toList.take resp.outlen.toNat

end Sys2Proof.Machine
end

