-- ==== Sys2Proof/Machine/Ops.lean ====
section
/-! DEFINITION. The named operations on the state: RXBUF, RXCNT, CRC_ACC (00_scope.md R14), the response every operation
gives, reporting a condition, which stands in this block where another machine takes an exception (60_exceptions.md R150,
R160), the reset event, and the step with nothing on the port. -/

namespace Sys2Proof.Machine

/-- COMMAND_LEN of this block. -/
def State.commandLen (s : State) : Nat := s.config.commandLen.bytes

/-- `RXBUF[i]` (R14). -/
def State.readRxbuf (s : State) (i : Nat) : Byte := s.rxbuf.toList.getD i 0

/-- `RXBUF[i] <- b` (R14). An index past the array names no element: nothing is written (log entry 10). -/
def State.writeRxbuf (s : State) (i : Nat) (b : Byte) : State := { s with rxbuf := s.rxbuf.setIfInBounds i b }

/-- `[RXBUF[0], ..., RXBUF[COMMAND_LEN-1]]` (42_framer.md R121). -/
def State.frame (s : State) : List Byte := (List.range s.commandLen).map s.readRxbuf

/-- `RXCNT <- n` (R14). -/
def State.setRxcnt (s : State) (n : Nat) : State := { s with rxcnt := BitVec.ofNat 3 n }

/-- `CRC_ACC <- v` (R14). -/
def State.setCrcAcc (s : State) (v : Half) : State := { s with crcAcc := v }

/-- `respond(ST, R, OUT)` (R15): the response of the operation. An omitted R is 0 and an omitted OUT is empty. An error
condition is reported in this way too, and in no other: nothing is saved, no vector is taken and no mode changes
(60_exceptions.md R150, R160). -/
def State.respond (s : State) (st : Status) (r : Word32 := 0) (out : List Byte := []) : State :=
  { s with response := some (mkResponse st r out) }

/-- What a reserved OP does: ILLEGAL_OP is reported and no state changes (30_encoding.md R57, 60_exceptions.md R151). -/
def State.reportIllegalOp (s : State) : State := s.respond .illegalOp

/-- The reset event (70_reset_and_hazards.md R180, R181): the state is the reset state, the parameters are unchanged
(R182), no response is pending, and the inputs still to come stay as they are. -/
def State.takeReset (s : State) : State := State.resetWith s.config s.inputs

/-- A step with nothing on the operation port: no operation, so no response and no change of state
(DESIGN CHOICE, log entry 8). -/
def State.idle (s : State) : State := { s with response := none }

/-- Taking the next input from the ports: the oldest one, and the state without it (20_memory.md R45). -/
def State.accept (s : State) : Option (Input × State) :=
  match s.inputs with
  | [] => none
  | x :: rest => some (x, { s with inputs := rest })

/-- Presenting one input ahead of those already waiting. -/
def State.presentNext (s : State) (x : Input) : State := { s with inputs := x :: s.inputs }

end Sys2Proof.Machine
end

