-- ==== Sys2Proof/Machine/FixedPoint.lean ====
section
/-! DEFINITION. The fixed-point codec: binary32 and the 5.3 format, FX_ENC and FX_DEC (41_fixed_point.md). -/

namespace Sys2Proof.Machine

/-- A binary32 operand (R100). A finite value is held exactly, as the integer `real(a) * 2^149`
(DEDUCED from R100, log entry 15). -/
inductive F32Value where
  | nan
  | inf (neg : Bool)
  | finite (scaled : Int)
deriving DecidableEq, Repr

/-- The sign bit of a binary32, bit 31 (R11). -/
def f32Sign (a : Word32) : Bool := a.getLsbD 31

/-- The biased exponent of a binary32, bits 30:23 (R11). -/
def f32Exp (a : Word32) : Nat := (a.extractLsb' 23 8).toNat

/-- The fraction of a binary32, bits 22:0 (R11). -/
def f32Frac (a : Word32) : Nat := (a.extractLsb' 0 23).toNat

/-- `|real(a)| * 2^149` of a finite binary32 (R100): `f` when `e = 0`, else `(2^23 + f) * 2^(e-1)`. -/
def f32Magnitude (a : Word32) : Nat :=
  if f32Exp a = 0 then f32Frac a else (2 ^ 23 + f32Frac a) * 2 ^ (f32Exp a - 1)

/-- `real(a)` and its exceptions (R100). -/
def f32Value (a : Word32) : F32Value :=
  if f32Exp a = 255 then
    if f32Frac a = 0 then .inf (f32Sign a) else .nan
  else
    .finite (if f32Sign a then -(f32Magnitude a : Int) else f32Magnitude a)

/-- `round_T` of the quotient `num / den` of natural numbers, a magnitude (R101). -/
def roundMagnitude (t : RoundTies) (num den : Nat) : Nat :=
  match t with
  | .away => (2 * num + den) / (2 * den)
  | .even =>
    let q := num / den
    let twice := 2 * (num % den)
    if twice < den then q else if den < twice then q + 1 else if q % 2 = 0 then q else q + 1

/-- `round_T(num / den)`, exact on the integers (R101): both tie rules treat the two signs alike. -/
def roundQuotient (t : RoundTies) (num : Int) (den : Nat) : Int := num.sign * (roundMagnitude t num.natAbs den : Int)

/-- `round_T(real(a) * 8)` for a finite `a` held as `real(a) * 2^149` (R103): the quotient by `2^146`. -/
def fxRound (t : RoundTies) (scaled : Int) : Int := roundQuotient t scaled (2 ^ 146)

/-- The status and the result byte of encoding a rounded value `n` (R103 to R106). -/
def fxClamp (m : OvfMode) (n : Int) : Status × Byte :=
  if -128 ≤ n ∧ n ≤ 127 then (.ok, byteOf n)
  else match m with
    | .sat => (.fixOvf, if 127 < n then 0x7F else 0x80)
    | .wrap => (.fixOvf, byteOf n)

/-- The status and the result byte of FX_ENC (R106). -/
def fxEncode (t : RoundTies) (m : OvfMode) (a : Word32) : Status × Byte :=
  match f32Value a with
  | .nan => (.fixOvf, 0x00)
  | .inf neg =>
    match m with
    | .sat => (.fixOvf, if neg then 0x80 else 0x7F)
    | .wrap => (.fixOvf, 0x00)
  | .finite scaled => fxClamp m (fxRound t scaled)

/-- `fx_dec(x)`: the binary32 equal to `s8val(x) / 8` (R107). -/
def fxDecode (x : Byte) : Word32 :=
  if x = 0 then 0
  else
    let k := s8val x
    let m := k.natAbs
    let p := Nat.log2 m
    BitVec.ofBool (decide (k < 0)) ++ BitVec.ofNat 8 (p + 124) ++ BitVec.ofNat 23 (m <<< (23 - p))

/-- FX_ENC (R106). -/
def execFxEnc (f : Word32) (s : State) : Host.Outcome State Fault Refusal :=
  let res := fxEncode s.config.roundTies s.config.ovfMode f
  .next (s.respond res.1 (zext32 8 res.2))

/-- FX_DEC (R108). -/
def execFxDec (x : Byte) (s : State) : Host.Outcome State Fault Refusal := .next (s.respond .ok (fxDecode x))

end Sys2Proof.Machine
end

