-- ==== Sys2Proof/Machine/Crc.lean ====
section
/-! DEFINITION. The CRC-16 engine: the CRC function and CRC_INIT, CRC_FEED, CRC_READ, CRC_CHECK (40_crc.md). -/

namespace Sys2Proof.Machine

/-- One bit of R80: shift left, and subtract the polynomial when a 1 leaves bit 15. -/
def crcShift (poly acc : Half) : Half := if acc.msb then (acc <<< 1) ^^^ poly else acc <<< 1

/-- `CrcStep(acc, b)`: one byte into the register (R80). -/
def crcStep (p : CrcParams) (acc : Half) (b : Byte) : Half :=
  let d := if p.refin then reflect 8 b else b
  (crcShift p.poly)^[8] (acc ^^^ (zext16 d <<< 8))

/-- `CrcFinal(acc)`: the output transform (R81). -/
def crcFinal (p : CrcParams) (acc : Half) : Half := (if p.refout then reflect 16 acc else acc) ^^^ p.xorout

/-- `crc16(seq)` (R82). -/
def crc16 (p : CrcParams) (bs : List Byte) : Half := crcFinal p (bs.foldl (crcStep p) p.init)

/-- A frame body followed by its CRC, little-endian (30_encoding.md R61). -/
def withCrc (p : CrcParams) (body : List Byte) : List Byte := body ++ wire16 (crc16 p body)

/-- CRC_INIT (R84). -/
def execCrcInit (s : State) : Host.Outcome State Fault Refusal :=
  .next ((s.setCrcAcc s.config.crc.init).respond .ok)

/-- CRC_FEED (R85). -/
def execCrcFeed (b : Byte) (s : State) : Host.Outcome State Fault Refusal :=
  .next ((s.setCrcAcc (crcStep s.config.crc s.crcAcc b)).respond .ok)

/-- CRC_READ (R86). -/
def execCrcRead (s : State) : Host.Outcome State Fault Refusal :=
  .next (s.respond .ok (zext32 16 (crcFinal s.config.crc s.crcAcc)))

/-- CRC_CHECK (R87). -/
def execCrcCheck (declared : Half) (s : State) : Host.Outcome State Fault Refusal :=
  let c := crcFinal s.config.crc s.crcAcc
  .next (s.respond (if c = declared then .ok else .crcMismatch) (zext32 16 c))

end Sys2Proof.Machine
end

