-- ==== Sys2Proof/Machine/Framer.lean ====
section
/-! DEFINITION. The serial packet framer: RX_BYTE, RX_RESET, CMD_ENC, TLM_ENC (42_framer.md; layouts 30_encoding.md R61 to
R66). -/

namespace Sys2Proof.Machine

/-- What `validate` answers: whether the CRC matches, the command opcode and the computed CRC (R120). -/
structure Validation where
  ok : Bool
  opcode : Half
  computed : Half
deriving DecidableEq, Repr

/-- The opcode field of a command frame (R62, R63). -/
def frameOpcode (n : CommandLen) (frame : List Byte) : Half :=
  match n with
  | .four => le16 (frame.getD 0 0) (frame.getD 1 0)
  | .three => zext16 (frame.getD 0 0)

/-- `validate(frame)` (R120). It neither reads nor writes CRC_ACC. -/
def validate (c : Config) (frame : List Byte) : Validation :=
  let n := c.commandLen.bytes
  let declared := le16 (frame.getD (n - 2) 0) (frame.getD (n - 1) 0)
  let computed := crc16 c.crc (frame.take (n - 2))
  { ok := decide (computed = declared), opcode := frameOpcode c.commandLen frame, computed := computed }

/-- The report of a completed frame (R121, R152, R156): FRAME_OK with R = {computed, opcode}, or FRAME_CRC_ERR with
R = {computed, 0x0000}; OUT is the frame in both cases. -/
def State.reportFrame (s : State) (frame : List Byte) : State :=
  let v := validate s.config frame
  if v.ok then s.respond .frameOk (v.computed ++ v.opcode) frame
  else s.respond .frameCrcErr (v.computed ++ (0 : Half)) frame

/-- RX_BYTE (R121). A count that is not below COMMAND_LEN, which no run reaches (R24), takes the completing branch
(DESIGN CHOICE, log entry 10). -/
def execRxByte (b : Byte) (s : State) : Host.Outcome State Fault Refusal :=
  let k := s.rxcnt.toNat
  let s1 := s.writeRxbuf k b
  if k + 1 < s.commandLen then
    .next ((s1.setRxcnt (k + 1)).respond .pending (BitVec.ofNat 32 (k + 1)))
  else
    .next ((s1.setRxcnt 0).reportFrame s1.frame)

/-- RX_RESET (R122). -/
def execRxReset (s : State) : Host.Outcome State Fault Refusal :=
  let k := s.rxcnt
  let s1 := s.setRxcnt 0
  .next (if k = 0 then s1.respond .ok else s1.respond .flushPartial (zext32 3 k))

/-- The bytes of the opcode field: both with COMMAND_LEN = 4, the low one only with 3 (R126, 92_eei_decisions.md D18). -/
def cmdBody (n : CommandLen) (o : Half) : List Byte :=
  match n with
  | .four => [lo8 o, hi8 o]
  | .three => [lo8 o]

/-- `cmd_frame(o)` (R126). -/
def cmdFrame (c : Config) (o : Half) : List Byte := withCrc c.crc (cmdBody c.commandLen o)

/-- The CRC field of a frame: its last two bytes, little-endian (R61). -/
def frameCrcField (f : List Byte) : Half := le16 (f.getD (f.length - 2) 0) (f.getD (f.length - 1) 0)

/-- The response of the two frame builders: OK, R = the CRC field, OUT = the frame (R127, R130). -/
def State.reportBuilt (s : State) (f : List Byte) : State := s.respond .ok (zext32 16 (frameCrcField f)) f

/-- CMD_ENC (R127). -/
def execCmdEnc (opcode : Half) (s : State) : Host.Outcome State Fault Refusal :=
  .next (s.reportBuilt (cmdFrame s.config opcode))

/-- The twelve bytes before the CRC of a telemetry frame (R129, 30_encoding.md R66). -/
def tlmBody (status : Half) (voltage : Byte) (current : Half) (speed magX magY magZ gyroX gyroY gyroZ : Byte) : List Byte :=
  [lo8 status, hi8 status, voltage, lo8 current, hi8 current, speed, magX, magY, magZ, gyroX, gyroY, gyroZ]

/-- TLM_ENC (R130), whose frame is `tlm_frame` of its operands (R129). -/
def execTlmEnc (status : Half) (voltage : Byte) (current : Half) (speed magX magY magZ gyroX gyroY gyroZ : Byte)
    (s : State) : Host.Outcome State Fault Refusal :=
  .next (s.reportBuilt (withCrc s.config.crc (tlmBody status voltage current speed magX magY magZ gyroX gyroY gyroZ)))

end Sys2Proof.Machine
end

