-- ==== Sys2Proof/Machine/Dispatch.lean ====
section
/-! DEFINITION. The effect of each operation: one arm per row of the opcode table. -/

namespace Sys2Proof.Machine

/-- One operation on the block (00_scope.md R16). -/
def exec (i : Instr) (s : State) : Host.Outcome State Fault Refusal :=
  match i with
  | .rxByte b => Sys2Proof.Machine.execRxByte b s
  | .rxReset => Sys2Proof.Machine.execRxReset s
  | .crcInit => Sys2Proof.Machine.execCrcInit s
  | .crcFeed b => Sys2Proof.Machine.execCrcFeed b s
  | .crcRead => Sys2Proof.Machine.execCrcRead s
  | .crcCheck declared => Sys2Proof.Machine.execCrcCheck declared s
  | .fxEnc f => Sys2Proof.Machine.execFxEnc f s
  | .fxDec x => Sys2Proof.Machine.execFxDec x s
  | .cmdEnc opcode => Sys2Proof.Machine.execCmdEnc opcode s
  | .tlmEnc status voltage current speed magX magY magZ gyroX gyroY gyroZ => Sys2Proof.Machine.execTlmEnc status voltage current speed magX magY magZ gyroX gyroY gyroZ s

end Sys2Proof.Machine
end

