-- ==== Sys2Proof/Machine/Step.lean ====
section
/-! DEFINITION. One step: the next input of the block is taken and performed (00_scope.md R16, 20_memory.md R45). -/

namespace Sys2Proof.Machine

/-- What an operation word does: its operation, or the report of a reserved OP (30_encoding.md R52, R57). -/
def perform (w : OpWord) (s : State) : Host.Outcome State Fault Refusal :=
  match decode w with
  | .instr i => exec i s
  | .reserved _ => .next s.reportIllegalOp

/-- One step of the block: idle with nothing presented, the reset event, or one operation. -/
def step (s : State) : Host.Outcome State Fault Refusal :=
  match s.accept with
  | none => .next s.idle
  | some (.reset, s') => .next s'.takeReset
  | some (.op w, s') => perform w s'

/-- `s` with the operation word of an opcode-table row presented, so that the next step performs it: the word goes to the
head of the port's sequence and nothing else changes (log entry 7). -/
def State.withFetchWord (s : State) (nbits w : Nat) : State := s.presentNext (.op (tableOpWord nbits w))

end Sys2Proof.Machine
end

