-- ==== Sys2Proof/Machine/Asm.lean ====
section
/-! DEFINITION. The notation for operation words: what each line of 30_encoding.md R70 and each pseudo-operation of R72 to
R75 stands for. It lies outside the block, which sees operation words only. -/

namespace Sys2Proof.Machine

/-- The bits of the binary32 nearest to the positive or zero quotient `num / den`, without its sign; none beyond the largest
finite binary32. A quotient halfway between two binary32 values goes to the even one (PRESUMED, log entry 16). -/
def nearestMagnitude (num den : Nat) : Option Nat :=
  if num = 0 then some 0
  else
    let guess : Int := (Nat.log2 num : Int) - Nat.log2 den
    let atLeast : Bool := decide (den * 2 ^ guess.toNat ≤ num * 2 ^ (-guess).toNat)
    let log : Int := if atLeast then guess else guess - 1
    let unit : Int := max (log - 23) (-149)
    let n := roundMagnitude .even (num * 2 ^ (-unit).toNat) (den * 2 ^ unit.toNat)
    let bits := (unit + 149).toNat * 2 ^ 23 + n
    if bits < 0x7F800000 then some bits else none

/-- The binary32 a float literal stands for (R70). Both zeros are nearest to a nonzero decimal literal that rounds to zero:
the one with the literal's sign is taken, -0.0 for a negative one (PRESUMED, log entry 16). -/
def floatBits? : FloatLit → Option Word32
  | .raw bits => some (BitVec.ofNat 32 bits)
  | .decimal neg digits exp10 =>
    (nearestMagnitude (digits * 10 ^ exp10.toNat) (10 ^ (-exp10).toNat)).map
      fun m => BitVec.ofBool neg ++ BitVec.ofNat 31 m

/-- `b`, an 8-bit operand. -/
def asmByte (n : Nat) : Byte := BitVec.ofNat 8 n

/-- A 16-bit operand. -/
def asmHalf (n : Nat) : Half := BitVec.ofNat 16 n

/-- `crc.of b0, ..., bn-1` (R72). -/
def crcOf (bs : List Byte) : List Instr := .crcInit :: bs.map .crcFeed ++ [.crcRead]

/-- `crc.verify b0, ..., bn-1 ; d` (R73). -/
def crcVerify (bs : List Byte) (d : Half) : List Instr := .crcInit :: bs.map .crcFeed ++ [.crcCheck d]

/-- `rx.frame b0, ..., bn-1` (R74). -/
def rxFrame (bs : List Byte) : List Instr := bs.map .rxByte

/-- `tlm.status s` (R75). -/
def tlmStatus (s : Half) : List Instr := [.tlmEnc s 0 0 0 0 0 0 0 0 0]

/-- The operations a line stands for; none for an ill-formed line (R70, R72 to R75). -/
def assemble (l : AsmLine) : Option (List Instr) :=
  if l.wellFormed then
    match l with
    | .crcInit => some [.crcInit]
    | .crcFeed b => some [.crcFeed (asmByte b)]
    | .crcRead => some [.crcRead]
    | .crcCheck d => some [.crcCheck (asmHalf d)]
    | .fxEnc f => (floatBits? f).map fun a => [.fxEnc a]
    | .fxDec x => some [.fxDec (byteOf x)]
    | .rxByte b => some [.rxByte (asmByte b)]
    | .rxReset => some [.rxReset]
    | .cmdEnc o => some [.cmdEnc (asmHalf o)]
    | .tlmEnc s v i sp mx my mz gx gy gz =>
      some [.tlmEnc (asmHalf s) (asmByte v) (asmHalf i) (asmByte sp) (asmByte mx) (asmByte my) (asmByte mz)
        (asmByte gx) (asmByte gy) (asmByte gz)]
    | .crcOf bs => some (crcOf (bs.map asmByte))
    | .crcVerify bs d => some (crcVerify (bs.map asmByte) (asmHalf d))
    | .rxFrame bs => some (rxFrame (bs.map asmByte))
    | .tlmStatus s => some (tlmStatus (asmHalf s))
  else none

/-- The operation words of a line, as they go to the port (R70, R71). -/
def assembleWords (l : AsmLine) : Option (List OpWord) := (assemble l).map (·.map encode)

/-- Operations as inputs of the block, in order. -/
def asInputs (is : List Instr) : List Input := is.map fun i => .op (encode i)

end Sys2Proof.Machine
end

