-- ==== Sys2Proof/Machine/Codes.lean ====
section
/-! DEFINITION. The command opcodes and telemetry status codes the spec names (30_encoding.md R64, R65). No operation reads
them: the framer passes any opcode through and TLM_ENC packs any status (92_eei_decisions.md D25). -/

namespace Sys2Proof.Machine

/-- The command opcodes of R64; which mode each test or orient opcode selects is not in the source. -/
inductive CommandName where
  | standby
  | heartbeat
  /-- 0xA1 to 0xA5. -/
  | testA (n : Fin 5)
  /-- 0xE0 to 0xE3. -/
  | testE (n : Fin 4)
deriving DecidableEq, Repr

/-- The 8-bit opcode (R64). -/
def CommandName.code : CommandName → Byte
  | .standby => 0xC0
  | .heartbeat => 0xA0
  | .testA n => BitVec.ofNat 8 (0xA1 + n.val)
  | .testE n => BitVec.ofNat 8 (0xE0 + n.val)

/-- The 16-bit field value of an opcode: the code zero-extended (R64). -/
def CommandName.field (c : CommandName) : Half := zext16 c.code

/-- The telemetry status codes of R65. -/
inductive TlmStatus where
  | ok
  | hello
  | adcsError
  | commError
  | testStart
  | testEnd
  | fudged
deriving DecidableEq, Repr

/-- The 8-bit status code (R65). -/
def TlmStatus.code : TlmStatus → Byte
  | .ok => 0xAA
  | .hello => 0xAF
  | .adcsError => 0xF0
  | .commError => 0x99
  | .testStart => 0xB0
  | .testEnd => 0xB1
  | .fudged => 0x00

/-- The 16-bit field value of a status: the code zero-extended (R65). -/
def TlmStatus.field (t : TlmStatus) : Half := zext16 t.code

end Sys2Proof.Machine
end

