-- ==== Sys2Proof/Safety.lean ====
section
/-! DEFINITION. The terms in which claims speak: what a legal state is, what an operation keeps, what a requester sees, and
the exact rational meaning of the two number formats. -/

namespace Sys2Proof.Machine

/-- The ST values of R54, as the port shows them. -/
def legalStatusCodes : List Byte := [0x00, 0x01, 0x02, 0x03, 0x04, 0x05, 0x06, 0xFF]

/-- A response as R53 to R55 allow it: a status of R54, OUTLEN at most 14, and every byte of OUT from OUTLEN on 0. -/
def Response.wellFormed (resp : Response) : Bool :=
  decide (resp.st ∈ legalStatusCodes) && decide (resp.outlen.toNat ≤ packetLen)
    && (resp.out.toList.drop resp.outlen.toNat).all (· == 0)

/-- What holds between any two operations: RXCNT < COMMAND_LEN (10_state.md R24), and a response, where there is one, is as
R53 to R55 allow. -/
def State.legal (s : State) : Bool :=
  decide (s.rxcnt.toNat < s.commandLen) && (match s.response with | none => true | some resp => resp.wellFormed)

/-- The response port shows ST, R and OUT, with OUTLEN the length of OUT and the other bytes of OUT 0 (R53, R55). -/
def State.Answers (s : State) (st : Byte) (r : Word32) (out : List Byte) : Prop :=
  ∃ resp, s.response = some resp ∧ resp.st = st ∧ resp.r = r ∧ resp.outlen.toNat = out.length
    ∧ ∀ i : Fin packetLen, resp.out[i.val] = out.getD i.val 0

/-- What no operation changes: the parameters, and the inputs still to come. -/
def SameSurroundings (s t : State) : Prop := t.config = s.config ∧ t.inputs = s.inputs

/-- The framer is as it was. -/
def SameFramer (s t : State) : Prop := t.rxbuf = s.rxbuf ∧ t.rxcnt = s.rxcnt

/-- The CRC engine is as it was. -/
def SameCrc (s t : State) : Prop := t.crcAcc = s.crcAcc

/-- Nothing of the block's state (R20) has changed, nor anything around it; only the response may differ. -/
def SameBlock (s t : State) : Prop := SameSurroundings s t ∧ SameFramer s t ∧ SameCrc s t

/-- Two states that differ at most in the RXBUF elements at or above RXCNT, which hold no defined value (R21, R34). -/
def SameVisible (s t : State) : Prop :=
  t.config = s.config ∧ t.rxcnt = s.rxcnt ∧ t.crcAcc = s.crcAcc ∧ t.response = s.response ∧ t.inputs = s.inputs
    ∧ ∀ i, i < s.rxcnt.toNat → t.readRxbuf i = s.readRxbuf i

/-- The three items of state of R20. -/
inductive Item where
  | rxbuf
  | rxcnt
  | crcAcc
deriving DecidableEq, Repr

/-- The `r` entries of the access table of R32. -/
def mayRead : Instr → Item → Bool
  | .rxByte _, .rxbuf | .rxByte _, .rxcnt => true
  | .rxReset, .rxcnt => true
  | .crcFeed _, .crcAcc => true
  | .crcRead, .crcAcc => true
  | .crcCheck _, .crcAcc => true
  | _, _ => false

/-- The `w` entries of the access table of R32. -/
def mayWrite : Instr → Item → Bool
  | .rxByte _, .rxbuf | .rxByte _, .rxcnt => true
  | .rxReset, .rxcnt => true
  | .crcInit, .crcAcc => true
  | .crcFeed _, .crcAcc => true
  | _, _ => false

/-- Two states agree on one item of state. -/
def AgreeOn (it : Item) (s t : State) : Prop :=
  match it with
  | .rxbuf => s.rxbuf = t.rxbuf
  | .rxcnt => s.rxcnt = t.rxcnt
  | .crcAcc => s.crcAcc = t.crcAcc

/-- The operations on the CRC engine (40_crc.md). -/
def onCrc : Instr → Bool
  | .crcInit | .crcFeed _ | .crcRead | .crcCheck _ => true
  | .rxByte _ | .rxReset | .fxEnc _ | .fxDec _ | .cmdEnc _ | .tlmEnc _ _ _ _ _ _ _ _ _ _ => false

/-- The operations on the receiving framer (42_framer.md section 1). -/
def onFramer : Instr → Bool
  | .rxByte _ | .rxReset => true
  | .crcInit | .crcFeed _ | .crcRead | .crcCheck _ | .fxEnc _ | .fxDec _ | .cmdEnc _
  | .tlmEnc _ _ _ _ _ _ _ _ _ _ => false

/-- The status codes each operation may return (the last column of R54). -/
def statusesOf : Instr → List Byte
  | .rxByte _ => [0x01, 0x02, 0x03]
  | .rxReset => [0x00, 0x04]
  | .crcInit | .crcFeed _ | .crcRead | .fxDec _ | .cmdEnc _ | .tlmEnc _ _ _ _ _ _ _ _ _ _ => [0x00]
  | .crcCheck _ => [0x00, 0x06]
  | .fxEnc _ => [0x00, 0x05]

/-- The responses of the first `n` steps, in order: all a requester sees of the block. -/
def trace : Nat → State → List (Option Response)
  | 0, _ => []
  | n + 1, s =>
    match step s with
    | .next t => t.response :: trace n t
    | .fault _ | .refused _ => []

/-- The response that reports a complete frame (R120, R121), for a frame of COMMAND_LEN bytes. -/
def frameResponse (c : Config) (frame : List Byte) : Response :=
  let n := c.commandLen.bytes
  let computed := crc16 c.crc (frame.take (n - 2))
  let declared : Half := frame.getD (n - 1) 0 ++ frame.getD (n - 2) 0
  let opcode : Half := (if n = 4 then frame.getD 1 0 else 0) ++ frame.getD 0 0
  if computed = declared then mkResponse .frameOk (computed ++ opcode) frame
  else mkResponse .frameCrcErr (computed ++ (0 : Half)) frame

/-- The response of the `k`-th RX_BYTE, counting from 0, of the byte stream `bs` that started at an empty buffer: frame
boundaries lie every COMMAND_LEN bytes (R121, R123). -/
def streamResponse (c : Config) (bs : List Byte) (k : Nat) : Response :=
  let n := c.commandLen.bytes
  if (k + 1) % n = 0 then frameResponse c ((bs.drop (k + 1 - n)).take n)
  else mkResponse .pending (BitVec.ofNat 32 ((k + 1) % n)) []

/-- `real(a)` of a finite binary32 as a rational number, straight from R100; none for a NaN or an infinity. -/
def f32Real (a : Word32) : Option ℚ :=
  let e : ℕ := a.toNat / 2 ^ 23 % 2 ^ 8
  let f : ℕ := a.toNat % 2 ^ 23
  let sign : ℚ := (-1) ^ (a.toNat / 2 ^ 31)
  if e = 255 then none
  else if e = 0 then some (sign * f * (2 : ℚ) ^ (-149 : ℤ))
  else some (sign * (2 ^ 23 + f) * (2 : ℚ) ^ ((e : ℤ) - 150))

/-- `a` is a NaN (R100). -/
def f32IsNan (a : Word32) : Bool := decide (a.toNat / 2 ^ 23 % 2 ^ 8 = 255 ∧ a.toNat % 2 ^ 23 ≠ 0)

/-- The number a 5.3 byte represents (R102). -/
def fixReal (x : Byte) : ℚ := (x.toInt : ℚ) / 8

/-- `n` is `round_T(q)` (R101): for AWAY by the formula, for EVEN as the nearest integer, the even one of the two halfway. -/
def RoundsTo (t : RoundTies) (q : ℚ) (n : ℤ) : Prop :=
  match t with
  | .away => n = (if q < 0 then -1 else 1) * ⌊|q| + 1 / 2⌋
  | .even => |q - n| ≤ 1 / 2 ∧ (|q - n| = 1 / 2 → Even n)

/-- The exact in-range condition of FX_ENC on finite inputs (R103). -/
def FxInRange (t : RoundTies) (q : ℚ) : Prop :=
  match t with
  | .away => -(257 / 16) < q ∧ q < 255 / 16
  | .even => -(257 / 16) ≤ q ∧ q < 255 / 16

/-- The bits of a bit vector, most significant first. -/
def msbFirst {n : Nat} (v : BitVec n) : List Bool := (List.range n).map fun i => v.getMsbD i

/-- The polynomial over GF(2) whose coefficients, highest first, are the given bits. -/
noncomputable def gfPoly (bits : List Bool) : Polynomial (ZMod 2) :=
  bits.foldl (fun acc b => acc * Polynomial.X + (if b then 1 else 0)) 0

/-- The bits of a byte sequence in the order in which they enter the CRC register (20_memory.md R38, 40_crc.md R80). -/
def crcBits (p : CrcParams) (bs : List Byte) : List Bool :=
  bs.flatMap fun b => if p.refin then (msbFirst b).reverse else msbFirst b

end Sys2Proof.Machine
end

