-- ==== Sys2Proof/Certificates/Slice0/Obligations.lean ====
section
/-! DEFINITION. The statements for the provers: what the numbered rules of spec/ say the block does. Every statement about a
state holds for every parameter set, since `config` is a field of the state. Nothing here rests on a value of RXBUF that the
spec leaves unspecified. -/

open Sys2Proof Sys2Proof.Machine

/-! ## Encoding -/

/-- R50: the four fields of the operation word, at the bits it gives, and nothing else. -/
def Obligations.OperationWordHasFourFields : Prop :=
  (∀ w : OpWord, (opField w).toNat = w.toNat % 2 ^ 8 ∧ (aField w).toNat = w.toNat / 2 ^ 8 % 2 ^ 32
      ∧ (bField w).toNat = w.toNat / 2 ^ 40 % 2 ^ 16 ∧ (cField w).toNat = w.toNat / 2 ^ 56 % 2 ^ 48
      ∧ opWord (opField w) (aField w) (bField w) (cField w) = w)
    ∧ ∀ op a b c, opField (opWord op a b c) = op ∧ aField (opWord op a b c) = a ∧ bField (opWord op a b c) = b
      ∧ cField (opWord op a b c) = c

/-- 30_encoding.md sections 1 and 3: a word decodes to an operation exactly when its read bits (the OP field and the
operand bits listed for the operation) are those of the operation's encoding; every other bit is free. With `w = encode i`
it is the round trip of the decoder and the encoder. -/
def Obligations.DecodeReadsExactlyListedBits : Prop :=
  ∀ (i : Instr) (w : OpWord), decode w = .instr i ↔ w &&& i.readMask = encode i

/-- R52: the OP field alone selects, on all 2^8 values; the ten values select their operation and every other is reserved,
whatever the operands. -/
def Obligations.OpFieldAloneSelectsOperation : Prop :=
  ∀ w : OpWord,
    (opField w ∈ ([0x01, 0x02, 0x10, 0x11, 0x12, 0x13, 0x20, 0x21, 0x30, 0x31] : List Byte) →
      ∃ i, decode w = .instr i ∧ i.op = opField w)
    ∧ (opField w ∉ ([0x01, 0x02, 0x10, 0x11, 0x12, 0x13, 0x20, 0x21, 0x30, 0x31] : List Byte) →
      decode w = .reserved (opField w))

/-- 30_encoding.md section 1: operand bits the operation does not read change neither its effect nor its response. -/
def Obligations.UnreadOperandBitsAreIgnored : Prop :=
  ∀ (i : Instr) (w v : OpWord) (s : State), decode w = .instr i → v &&& i.readMask = w &&& i.readMask →
    perform v s = perform w s

/-- A few words written out from the encoding of 30_encoding.md sections 1 and 3 decode to the operation they stand for.
-/
def Obligations.SampleWordsDecode : Prop :=
  decode 0x0000000000000000000000C001 = .instr (.rxByte 0xC0)
    ∧ decode 0x00000000000000000000000002 = .instr .rxReset
    ∧ decode 0x00000000000038BC0000000013 = .instr (.crcCheck 0x38BC)
    ∧ decode 0x00000000000000003F80000020 = .instr (.fxEnc 0x3F800000)
    ∧ decode 0x00000000000000001234560821 = .instr (.fxDec 0x08)
    ∧ decode 0x7F8001010203807FBEEF123431 = .instr (.tlmEnc 0x1234 0x7F 0xBEEF 0x80 0x03 0x02 0x01 0x01 0x80 0x7F)
    ∧ decode 0x00000000000000000000000003 = .reserved 0x03

/-- R57: a word with a reserved OP changes no state and answers ILLEGAL_OP with R = 0 and OUTLEN = 0; the block goes on.
-/
def Obligations.ReservedOpAnswersIllegalOp : Prop :=
  ∀ (s : State) (w : OpWord) (rest : List Input), s.inputs = .op w :: rest →
    (let op := (opField w).toNat
     op = 0x00 ∨ (0x03 ≤ op ∧ op ≤ 0x0F) ∨ (0x14 ≤ op ∧ op ≤ 0x1F) ∨ (0x22 ≤ op ∧ op ≤ 0x2F) ∨ (0x32 ≤ op ∧ op ≤ 0xFF)) →
    ∃ t, step s = .next t ∧ t.config = s.config ∧ t.inputs = rest ∧ SameFramer s t ∧ SameCrc s t ∧ t.Answers 0xFF 0 []

/-! ## The step -/

/-- One step takes the oldest word from the port and runs the operation it decodes to, on the state without that word. -/
def Obligations.StepRunsDecodedOperation : Prop :=
  ∀ (s : State) (w : OpWord) (rest : List Input) (i : Instr), s.inputs = .op w :: rest → decode w = .instr i →
    step s = exec i { s with inputs := rest }

/-- With nothing on the port a step changes nothing but the response port, which then shows no response. The MODEL's
choice (DESIGN CHOICE, log entry 8): the spec describes no such step. -/
def Obligations.StepWithNothingPresentedIsIdle : Prop :=
  ∀ s : State, s.inputs = [] → ∃ t, step s = .next t ∧ SameBlock s t ∧ t.response = none

/-- 60_exceptions.md section 1 and 70_reset_and_hazards.md section 4: every operation completes in one step; nothing halts
the block, so a run of any length from any state goes on. -/
def Obligations.BlockNeverStops : Prop :=
  ∀ (n : Nat) (s : State), ∃ t, Host.Core.run Sys2Proof.core n s = .next t

/-- 20_memory.md section 5: inputs take effect in port order, one a step, and no step sees a later input: the run over
`xs` is the same whatever `ys` waits behind, and leaves exactly `ys`. -/
def Obligations.LaterInputsDoNotMatter : Prop :=
  ∀ (s : State) (xs ys : List Input), ∃ t, t.inputs = []
    ∧ Host.Core.run Sys2Proof.core xs.length { s with inputs := xs } = .next t
    ∧ Host.Core.run Sys2Proof.core xs.length { s with inputs := xs ++ ys } = .next { t with inputs := ys }
    ∧ trace xs.length { s with inputs := xs ++ ys } = trace xs.length { s with inputs := xs }

/-! ## Reset -/

/-- R181: reset, taken from any state, empties the partial frame, sets CRC_ACC to CRC_INIT and leaves no response pending;
and the contents of RXBUF after it are unobservable: any other contents give the same responses for ever. The parameters
stay and the inputs still to come stay. -/
def Obligations.ResetEventLeavesResetValues : Prop :=
  ∀ (s : State) (rest : List Input), s.inputs = .reset :: rest →
    ∃ t, step s = .next t ∧ t.rxcnt = 0 ∧ t.crcAcc = s.config.crc.init ∧ t.response = none ∧ t.config = s.config
      ∧ t.inputs = rest ∧ ∀ (contents : Vector Byte 4) (n : Nat), trace n { t with rxbuf := contents } = trace n t

/-- The reset state of the model holds the reset values with the parameters this spec takes. -/
def Obligations.ResetStateHoldsResetValues : Prop :=
  State.reset.rxcnt = 0 ∧ State.reset.crcAcc = 0xFFFF ∧ State.reset.response = none ∧ State.reset.config = Config.spec

/-- 00_scope.md section 3: the values this spec takes for the five CRC parameters. -/
def Obligations.SpecCrcParameters : Prop :=
  Config.spec.crc.poly = 0x1021 ∧ Config.spec.crc.init = 0xFFFF ∧ Config.spec.crc.refin = false
    ∧ Config.spec.crc.refout = false ∧ Config.spec.crc.xorout = 0x0000

/-! ## CRC engine -/

/-- R84: CRC_INIT, with its encoding: CRC_ACC takes the parameter CRC_INIT, the framer is untouched, the answer is OK. -/
def Obligations.CrcInitStartsNewCrc : Prop :=
  ∀ (s : State) (a : Word32) (b : Half) (c : Word48), decode (opWord 0x10 a b c) = .instr .crcInit
    ∧ ∃ t, exec .crcInit s = .next t ∧ t.crcAcc = s.config.crc.init ∧ SameFramer s t ∧ SameSurroundings s t
      ∧ t.Answers 0x00 0 []

/-- R85: CRC_FEED, with its encoding: CRC_ACC takes in the byte A[7:0], nothing else changes, the answer is OK. -/
def Obligations.CrcFeedAdvancesRegister : Prop :=
  ∀ (s : State) (a : Word32) (b : Half) (c : Word48), decode (opWord 0x11 a b c) = .instr (.crcFeed (a.extractLsb' 0 8))
    ∧ ∃ t, exec (.crcFeed (a.extractLsb' 0 8)) s = .next t
      ∧ t.crcAcc = crcStep s.config.crc s.crcAcc (a.extractLsb' 0 8)
      ∧ SameFramer s t ∧ SameSurroundings s t ∧ t.Answers 0x00 0 []

/-- R86: CRC_READ, with its encoding: R is CrcFinal(CRC_ACC) zero-extended, and no state changes; after any bytes fed
since CRC_INIT it is crc16 of them. -/
def Obligations.CrcReadReturnsCrc : Prop :=
  ∀ (s : State) (a : Word32) (b : Half) (c : Word48), decode (opWord 0x12 a b c) = .instr .crcRead
    ∧ ∃ t, exec .crcRead s = .next t ∧ SameBlock s t ∧ t.Answers 0x00 ((crcFinal s.config.crc s.crcAcc).setWidth 32) []
      ∧ ∀ bs, s.crcAcc = bs.foldl (crcStep s.config.crc) s.config.crc.init →
        t.Answers 0x00 ((crc16 s.config.crc bs).setWidth 32) []

/-- R87: CRC_CHECK, with its encoding: OK when B[15:0] equals CrcFinal(CRC_ACC), CRC_MISMATCH when not, R the computed CRC
in both cases, and no state changes. -/
def Obligations.CrcCheckComparesDeclaredCrc : Prop :=
  ∀ (s : State) (a : Word32) (b : Half) (c : Word48), decode (opWord 0x13 a b c) = .instr (.crcCheck b)
    ∧ ∃ t, exec (.crcCheck b) s = .next t ∧ SameBlock s t
      ∧ (crcFinal s.config.crc s.crcAcc = b → t.Answers 0x00 (b.setWidth 32) [])
      ∧ (crcFinal s.config.crc s.crcAcc ≠ b → t.Answers 0x06 ((crcFinal s.config.crc s.crcAcc).setWidth 32) [])

/-- R82: crc16 of a sequence of any length: CrcFinal of the initial value for the empty one, and one CrcStep a byte. -/
def Obligations.Crc16FoldsCrcStep : Prop :=
  ∀ p : CrcParams, crc16 p [] = crcFinal p p.init
    ∧ (crc16 CrcParams.ibm3740 [] = 0xFFFF)
    ∧ ∃ reg : List Byte → Half, reg [] = p.init ∧ (∀ bs b, reg (bs ++ [b]) = crcStep p (reg bs) b)
      ∧ ∀ bs, crc16 p bs = crcFinal p (reg bs)

/-- 40_crc.md section 1, the check value of this spec's parameters (R83, which the spec marks as derived): crc16 of
"123456789" is 0x29B1. -/
def Obligations.CrcCheckValue : Prop :=
  crc16 Config.spec.crc [0x31, 0x32, 0x33, 0x34, 0x35, 0x36, 0x37, 0x38, 0x39] = 0x29B1

/-- 30_encoding.md section 6, `crc.of` (R72, which the spec marks as derived): run at any time, on any bytes, it answers
crc16 of the bytes and leaves the framer as it was. -/
def Obligations.StreamingCrcIsCrc16 : Prop :=
  ∀ (s : State) (bs : List Byte) (rest : List Input), ∃ t,
    Host.Core.run Sys2Proof.core (bs.length + 2) { s with inputs := asInputs (crcOf bs) ++ rest } = .next t
      ∧ t.inputs = rest ∧ SameFramer s t ∧ t.Answers 0x00 ((crc16 s.config.crc bs).setWidth 32) []

/-- 40_crc.md section 3, the integrity law (R73 and the first clause of R89, which the spec marks as derived): `crc.verify
bs ; d` answers OK exactly when `d` is crc16 of the bytes, and CRC_MISMATCH otherwise. -/
def Obligations.CrcVerifyAcceptsExactlyCrc16 : Prop :=
  ∀ (s : State) (bs : List Byte) (d : Half) (rest : List Input), ∃ t,
    Host.Core.run Sys2Proof.core (bs.length + 2) { s with inputs := asInputs (crcVerify bs d) ++ rest } = .next t
      ∧ t.inputs = rest ∧ SameFramer s t
      ∧ t.Answers (if d = crc16 s.config.crc bs then 0x00 else 0x06) ((crc16 s.config.crc bs).setWidth 32) []

/-- 40_crc.md section 3, the second clause of R89 (from general knowledge, as the spec marks it): every single-bit change
of the bytes changes their CRC. It is stated for every polynomial with a constant term, 0x1021 among them, and every value
of the other parameters. -/
def Obligations.SingleBitChangeChangesCrc : Prop :=
  ∀ (p : CrcParams) (bs : List Byte) (i j : Nat), p.poly.getLsbD 0 = true → i < bs.length → j < 8 →
    crc16 p (bs.set i (bs.getD i 0 ^^^ (1#8 <<< j))) ≠ crc16 p bs

/-- 40_crc.md section 3: the arithmetic of the CRC is carry-less (R88, which the spec marks as derived). CrcStep is linear
over XOR in the register and the byte together. -/
def Obligations.CrcStepIsCarryless : Prop :=
  ∀ (p : CrcParams) (acc₁ acc₂ : Half) (b₁ b₂ : Byte),
    crcStep p (acc₁ ^^^ acc₂) (b₁ ^^^ b₂) = crcStep p acc₁ b₁ ^^^ crcStep p acc₂ b₂

/-- 00_scope.md section 3 and 40_crc.md section 1: CRC_POLY is a generator polynomial with its x^16 term implied. Over
GF(2) the register after `n` bytes is congruent to init * x^(8n) + message * x^16 modulo that polynomial. -/
def Obligations.CrcRegisterIsPolynomialRemainder : Prop :=
  ∀ (p : CrcParams) (bs : List Byte),
    (Polynomial.X ^ 16 + gfPoly (msbFirst p.poly)) ∣
      gfPoly (msbFirst (bs.foldl (crcStep p) p.init))
        - (gfPoly (msbFirst p.init) * Polynomial.X ^ (8 * bs.length) + gfPoly (crcBits p bs) * Polynomial.X ^ 16)

/-! ## Fixed-point codec -/

/-- FX_ENC, with its encoding, on every binary32 and every parameter value (R104 and R105, in the pseudo-code of R106):
the rounding is that of the exact rational value, no state changes. -/
def Obligations.FxEncRoundsAndReports : Prop :=
  ∀ (s : State) (a : Word32) (b : Half) (c : Word48), decode (opWord 0x20 a b c) = .instr (.fxEnc a)
    ∧ ∃ t, exec (.fxEnc a) s = .next t ∧ SameBlock s t
      ∧ (f32IsNan a = true → t.Answers 0x05 0x00 [])
      ∧ (a = 0x7F800000 → t.Answers 0x05 (match s.config.ovfMode with | .sat => 0x7F | .wrap => 0x00) [])
      ∧ (a = 0xFF800000 → t.Answers 0x05 (match s.config.ovfMode with | .sat => 0x80 | .wrap => 0x00) [])
      ∧ (f32IsNan a = false → a ≠ 0x7F800000 → a ≠ 0xFF800000 → ∃ q n, f32Real a = some q
        ∧ RoundsTo s.config.roundTies (q * 8) n
        ∧ (-128 ≤ n → n ≤ 127 → t.Answers 0x00 ((BitVec.ofInt 8 n).setWidth 32) [])
        ∧ (127 < n → t.Answers 0x05 (match s.config.ovfMode with
          | .sat => 0x7F | .wrap => (BitVec.ofInt 8 n).setWidth 32) [])
        ∧ (n < -128 → t.Answers 0x05 (match s.config.ovfMode with
          | .sat => 0x80 | .wrap => (BitVec.ofInt 8 n).setWidth 32) []))

/-- 41_fixed_point.md section 1: the integer rounding of the machine is `round_T` of the exact quotient, for both tie
rules, and `round_T` has one value. -/
def Obligations.FxRoundIsRoundT : Prop :=
  ∀ (t : RoundTies) (scaled : Int) (n : ℤ), RoundsTo t ((scaled : ℚ) / 2 ^ 146) n ↔ n = fxRound t scaled

/-- 41_fixed_point.md section 2: a finite input is in range exactly under the stated bounds, which depend on the tie rule
(R103, whose bounds the spec marks as derived). -/
def Obligations.FxEncRangeIsExact : Prop :=
  ∀ (t : RoundTies) (m : OvfMode) (a : Word32) (q : ℚ), f32Real a = some q →
    ((fxEncode t m a).1 = .ok ↔ FxInRange t q) ∧ ((fxEncode t m a).1 = .fixOvf ↔ ¬ FxInRange t q)

/-- R108: FX_DEC, with its encoding: the answer is OK and R is the binary32 equal to s8val(x) / 8, +0.0 for the byte 0,
with the bits 41_fixed_point.md section 3 gives; no state changes. -/
def Obligations.FxDecIsExact : Prop :=
  ∀ (s : State) (a : Word32) (b : Half) (c : Word48), decode (opWord 0x21 a b c) = .instr (.fxDec (a.extractLsb' 0 8))
    ∧ ∃ t r, exec (.fxDec (a.extractLsb' 0 8)) s = .next t ∧ SameBlock s t ∧ t.Answers 0x00 r []
      ∧ f32Real r = some (fixReal (a.extractLsb' 0 8))
      ∧ (a.extractLsb' 0 8 = 0 → r = 0x00000000)
      ∧ (a.extractLsb' 0 8 ≠ 0 → ∃ p, 2 ^ p ≤ (a.extractLsb' 0 8).toInt.natAbs
        ∧ (a.extractLsb' 0 8).toInt.natAbs < 2 ^ (p + 1)
        ∧ r.toNat = (if (a.extractLsb' 0 8).toInt < 0 then 2 ^ 31 else 0) + (p + 124) * 2 ^ 23
          + (a.extractLsb' 0 8).toInt.natAbs * 2 ^ (23 - p) % 2 ^ 23)

/-- 41_fixed_point.md section 4, the round trip (R109, which the spec marks as derived): in [-16, 15.875] FX_ENC answers
OK, and decoding the byte gives the input back to within 1/16, with equality exactly at the odd multiples of 1/16. -/
def Obligations.FxRoundTripWithinSixteenth : Prop :=
  ∀ (s : State) (a : Word32) (q : ℚ), f32Real a = some q → -16 ≤ q → q ≤ 127 / 8 →
    ∃ t x d, exec (.fxEnc a) s = .next t ∧ t.Answers 0x00 (BitVec.setWidth 32 x) [] ∧ f32Real (fxDecode x) = some d
      ∧ |d - q| ≤ 1 / 16 ∧ (|d - q| = 1 / 16 ↔ ∃ k : ℤ, q = (2 * k + 1) / 16)

/-- 41_fixed_point.md section 4: encoding a decoded byte gives the byte back, under every parameter value (R110, which the
spec marks as derived). -/
def Obligations.FxDecodeThenEncode : Prop :=
  ∀ (s : State) (x : Byte), ∃ t u, exec (.fxDec x) s = .next t ∧ t.Answers 0x00 (fxDecode x) []
    ∧ exec (.fxEnc (fxDecode x)) t = .next u ∧ u.Answers 0x00 (x.setWidth 32) []

/-- 41_fixed_point.md section 4: with FIX_OVF_MODE = SAT the encoder is monotone on finite inputs; with WRAP it is not, by
the example of R111 (which the spec marks as derived). -/
def Obligations.FxEncIsMonotoneWhenSaturating : Prop :=
  (∀ (t : RoundTies) (a b : Word32) (p q : ℚ), f32Real a = some p → f32Real b = some q → p ≤ q →
    (fxEncode t .sat a).2.toInt ≤ (fxEncode t .sat b).2.toInt)
  ∧ (fxEncode .away .wrap 0x417F0000).2 = 0x80

/-! ## Framer -/

/-- R121: RX_BYTE, with its encoding, for both values of COMMAND_LEN: the byte is stored at RXBUF[RXCNT]; below
COMMAND_LEN the answer is PENDING with the new count; at COMMAND_LEN the frame is reported, FRAME_OK with the CRC and the
opcode or FRAME_CRC_ERR with the computed CRC (the validation of R120 written out), OUT is the frame, and the buffer is
empty. The premise is the invariant of R24 that `LegalStateIsInvariant` states. -/
def Obligations.RxByteAppendsOrCompletesFrame : Prop :=
  ∀ (s : State) (a : Word32) (b : Half) (c : Word48), s.rxcnt.toNat < s.config.commandLen.bytes →
    decode (opWord 0x01 a b c) = .instr (.rxByte (a.extractLsb' 0 8))
    ∧ ∃ t, exec (.rxByte (a.extractLsb' 0 8)) s = .next t ∧ SameSurroundings s t ∧ SameCrc s t
      ∧ (let k := s.rxcnt.toNat
         let x : Byte := a.extractLsb' 0 8
         let computed := crc16 s.config.crc ((List.range (k - 1)).map s.readRxbuf)
         let declared : Half := x ++ s.readRxbuf (k - 1)
         let opcode : Half := (if s.config.commandLen = .four then s.readRxbuf 1 else 0) ++ s.readRxbuf 0
         let frame := (List.range k).map s.readRxbuf ++ [x]
         t.readRxbuf k = x ∧ (∀ i, i ≠ k → t.readRxbuf i = s.readRxbuf i)
         ∧ (k + 1 < s.config.commandLen.bytes → t.rxcnt.toNat = k + 1 ∧ t.Answers 0x01 (BitVec.ofNat 32 (k + 1)) [])
         ∧ (k + 1 = s.config.commandLen.bytes → t.rxcnt = 0
           ∧ (computed = declared → t.Answers 0x02 (computed ++ opcode) frame)
           ∧ (computed ≠ declared → t.Answers 0x03 (computed ++ 0#16) frame)))

/-- R122: RX_RESET, with its encoding: the count becomes 0; OK from an empty buffer, FLUSH_PARTIAL with the number of
bytes discarded otherwise; RXBUF, CRC_ACC and all else unchanged. -/
def Obligations.RxResetFlushesPartialFrame : Prop :=
  ∀ (s : State) (a : Word32) (b : Half) (c : Word48), decode (opWord 0x02 a b c) = .instr .rxReset
    ∧ ∃ t, exec .rxReset s = .next t ∧ t.rxcnt = 0 ∧ t.rxbuf = s.rxbuf ∧ SameCrc s t ∧ SameSurroundings s t
      ∧ (s.rxcnt = 0 → t.Answers 0x00 0 [])
      ∧ (s.rxcnt ≠ 0 → t.Answers 0x04 (s.rxcnt.setWidth 32) [])

/-- R127, the frame of R126 for both values of COMMAND_LEN: CMD_ENC, with its encoding: OUT is the frame, the CRC field
little-endian, R the CRC, no state changes. -/
def Obligations.CmdEncBuildsCommandFrame : Prop :=
  ∀ (s : State) (a : Word32) (b : Half) (c : Word48), decode (opWord 0x30 a b c) = .instr (.cmdEnc (a.extractLsb' 0 16))
    ∧ ∃ t, exec (.cmdEnc (a.extractLsb' 0 16)) s = .next t ∧ SameBlock s t
      ∧ (let body : List Byte := if s.config.commandLen = .four then [a.extractLsb' 0 8, a.extractLsb' 8 8]
           else [a.extractLsb' 0 8]
         let crc := crc16 s.config.crc body
         t.Answers 0x00 (crc.setWidth 32) (body ++ [crc.extractLsb' 0 8, crc.extractLsb' 8 8]))

/-- R130, the frame of R129 from the operands of R67 to R69: TLM_ENC, with its encoding: OUT is the 14-byte frame, R the
CRC, no state changes. -/
def Obligations.TlmEncBuildsTelemetryFrame : Prop :=
  ∀ (s : State) (status : Half) (voltage : Byte) (current : Half) (speed magX magY magZ gyroX gyroY gyroZ : Byte),
    decode (opWord 0x31 (current ++ status) (speed ++ voltage) (gyroZ ++ gyroY ++ gyroX ++ magZ ++ magY ++ magX))
      = .instr (.tlmEnc status voltage current speed magX magY magZ gyroX gyroY gyroZ)
    ∧ ∃ t, exec (.tlmEnc status voltage current speed magX magY magZ gyroX gyroY gyroZ) s = .next t ∧ SameBlock s t
      ∧ (let body : List Byte := [status.extractLsb' 0 8, status.extractLsb' 8 8, voltage, current.extractLsb' 0 8,
           current.extractLsb' 8 8, speed, magX, magY, magZ, gyroX, gyroY, gyroZ]
         let crc := crc16 s.config.crc body
         t.Answers 0x00 (crc.setWidth 32) (body ++ [crc.extractLsb' 0 8, crc.extractLsb' 8 8]))

/-- 30_encoding.md section 6 and the example of 42_framer.md section 3: the COMM_ERROR frame, `tlm.status 0x0099`. -/
def Obligations.CommErrorFrame : Prop :=
  tlmStatus TlmStatus.commError.field = [.tlmEnc 0x0099 0 0 0 0 0 0 0 0 0]
    ∧ ∃ t, exec (.tlmEnc 0x0099 0 0 0 0 0 0 0 0 0) State.reset = .next t
      ∧ t.Answers 0x00 0x000001D5 [0x99, 0x00, 0x00, 0x00, 0x00, 0x00, 0x00, 0x00, 0x00, 0x00, 0x00, 0x00, 0xD5, 0x01]

/-- 42_framer.md section 1, frame alignment, framing idempotence and block reads (R123 to R125, which the spec marks as
derived): a byte stream fed from an empty buffer, of any length, gives at every byte exactly the response its position
calls for: a frame report, of the last COMMAND_LEN bytes alone, at each multiple of COMMAND_LEN, and PENDING with the
position in the frame elsewhere. -/
def Obligations.FramingIsByCountAlone : Prop :=
  ∀ (s : State) (bs : List Byte) (rest : List Input), s.rxcnt = 0 →
    trace bs.length { s with inputs := asInputs (rxFrame bs) ++ rest }
        = (List.range bs.length).map (fun k => some (streamResponse s.config bs k))
      ∧ ∃ t, Host.Core.run Sys2Proof.core bs.length { s with inputs := asInputs (rxFrame bs) ++ rest } = .next t
        ∧ t.inputs = rest ∧ t.rxcnt.toNat = bs.length % s.config.commandLen.bytes ∧ SameCrc s t

/-- 42_framer.md section 2, the command round trip (R128, which the spec marks as derived): the OUT bytes of CMD_ENC, fed
to RX_BYTE from an empty buffer, are accepted at the last byte, with the opcode (its low byte only when COMMAND_LEN = 3).
-/
def Obligations.BuiltCommandFrameIsAccepted : Prop :=
  ∀ (s : State) (o : Half) (rest : List Input), s.rxcnt = 0 →
    ∃ t resp u, exec (.cmdEnc o) s = .next t ∧ t.response = some resp ∧ resp.bytes.length = s.config.commandLen.bytes
      ∧ Host.Core.run Sys2Proof.core s.config.commandLen.bytes { t with inputs := asInputs (rxFrame resp.bytes) ++ rest }
        = .next u
      ∧ u.inputs = rest ∧ u.rxcnt = 0
      ∧ ∃ crc : Half, u.Answers 0x02
        (crc ++ (match s.config.commandLen with | .four => o | .three => (o.setWidth 8).setWidth 16)) resp.bytes

/-- 42_framer.md section 3, the telemetry self-check (R131, which the spec marks as derived): `crc.verify` of the first 12
bytes that TLM_ENC answers, with the last two as the declared CRC, answers OK. -/
def Obligations.BuiltTelemetryFrameVerifies : Prop :=
  ∀ (s : State) (status : Half) (voltage : Byte) (current : Half) (speed magX magY magZ gyroX gyroY gyroZ : Byte)
    (rest : List Input),
    ∃ t resp u, exec (.tlmEnc status voltage current speed magX magY magZ gyroX gyroY gyroZ) s = .next t
      ∧ t.response = some resp ∧ resp.bytes.length = 14
      ∧ Host.Core.run Sys2Proof.core 14
          { t with inputs := asInputs (crcVerify (resp.bytes.take 12) (resp.bytes.getD 13 0 ++ resp.bytes.getD 12 0)) ++ rest }
        = .next u
      ∧ u.inputs = rest ∧ ∃ r, u.Answers 0x00 r []

/-- 70_reset_and_hazards.md section 3, recovery of a misaligned framer (R187, which the spec marks as derived): from any
state at all, RX_RESET followed by a built command frame ends in FRAME_OK with an empty buffer. -/
def Obligations.RxResetRealignsFramer : Prop :=
  ∀ (s : State) (o : Half) (rest : List Input),
    ∃ t, Host.Core.run Sys2Proof.core (s.config.commandLen.bytes + 1)
        { s with inputs := asInputs (.rxReset :: rxFrame (cmdFrame s.config o)) ++ rest } = .next t
      ∧ t.inputs = rest ∧ t.rxcnt = 0 ∧ ∃ r, t.Answers 0x02 r (cmdFrame s.config o)

/-! ## State as a whole -/

/-- R32: which operation reads and which writes which item of state, the row of a reserved OP among them. What it does not
write is unchanged; its response, and the values it writes, depend on nothing it does not read. -/
def Obligations.AccessTableHolds : Prop :=
  (∀ (i : Instr) (s : State), ∃ t, exec i s = .next t ∧ SameSurroundings s t
    ∧ ∀ it, mayWrite i it = false → AgreeOn it s t)
  ∧ (∀ (i : Instr) (s₁ s₂ : State), s₁.config = s₂.config → (∀ it, mayRead i it = true → AgreeOn it s₁ s₂) →
    ∃ t₁ t₂, exec i s₁ = .next t₁ ∧ exec i s₂ = .next t₂ ∧ t₁.response = t₂.response
      ∧ ∀ it, mayWrite i it = true → AgreeOn it t₁ t₂)
  ∧ ∀ (w : OpWord) (op : Byte) (s₁ s₂ : State), decode w = .reserved op →
    ∃ t₁ t₂, perform w s₁ = .next t₁ ∧ perform w s₂ = .next t₂ ∧ SameBlock s₁ t₁ ∧ t₁.response = t₂.response

/-- 20_memory.md section 3: CRC_READ, CRC_CHECK, FX_ENC, FX_DEC, CMD_ENC and TLM_ENC change no state, and repeating one
gives the same response (R43, which the spec marks as derived). -/
def Obligations.ReadOnlyOperationsAreIdempotent : Prop :=
  ∀ (i : Instr) (s : State), (∀ it, mayWrite i it = false) →
    ∃ t, exec i s = .next t ∧ SameBlock s t ∧ exec i t = .next t

/-- R24 (which the spec marks as derived) and R53 to R55 as an invariant: a step from a legal state, whatever it takes
from the port, gives a legal state: RXCNT stays below COMMAND_LEN, and the response is one that the port can show. -/
def Obligations.LegalStateIsInvariant : Prop :=
  ∀ s t : State, s.legal = true → step s = .next t → t.legal = true

/-- The reset state is legal. -/
def Obligations.ResetStateIsLegal : Prop := State.reset.legal = true

/-- 10_state.md section 2: no operation and no reset writes a parameter: along a run of any length from any state they
stay as they are. -/
def Obligations.ParametersNeverChange : Prop :=
  ∀ (n : Nat) (s : State), ∃ t, Host.Core.run Sys2Proof.core n s = .next t ∧ t.config = s.config

/-- 30_encoding.md section 2 and 60_exceptions.md section 2: each operation returns only the statuses listed for it, so at
most one error condition belongs to an operation, and every one answers. -/
def Obligations.EachOperationReturnsItsStatuses : Prop :=
  ∀ (i : Instr) (s : State), ∃ t resp, exec i s = .next t ∧ t.response = some resp ∧ resp.st ∈ statusesOf i

/-- 10_state.md sections 1 and 5: the elements of RXBUF at or above RXCNT are unobservable (R33 and R34, which the spec
marks as derived). Two states that agree on all else stay so step by step, and give the same responses for ever. -/
def Obligations.StaleBufferBytesAreUnobservable : Prop :=
  ∀ s t : State, SameVisible s t →
    (∃ s' t', step s = .next s' ∧ step t = .next t' ∧ SameVisible s' t') ∧ ∀ n, trace n t = trace n s

/-- 10_state.md section 4: the framer and the CRC engine share no state. In any program, the CRC engine ends where it
would end if only the CRC operations had been issued, and the framer where it would end if only its own had. -/
def Obligations.FramerAndCrcEngineAreIndependent : Prop :=
  ∀ (s : State) (prog : List Instr), ∃ t u v,
    Host.Core.run Sys2Proof.core prog.length { s with inputs := asInputs prog } = .next t
    ∧ Host.Core.run Sys2Proof.core (prog.filter onCrc).length { s with inputs := asInputs (prog.filter onCrc) } = .next u
    ∧ Host.Core.run Sys2Proof.core (prog.filter onFramer).length { s with inputs := asInputs (prog.filter onFramer) } = .next v
    ∧ t.crcAcc = u.crcAcc ∧ SameFramer v t

/-- 20_memory.md section 2: the 16-bit wire fields are little-endian: the byte of bits 7:0 first, then the byte of bits
15:8; reading the pair gives the value back. -/
def Obligations.WireFieldsAreLittleEndian : Prop :=
  (∀ v : Half, wire16 v = [v.extractLsb' 0 8, v.extractLsb' 8 8] ∧ le16 (lo8 v) (hi8 v) = v)
    ∧ ∀ lo hi : Byte, (le16 lo hi).toNat = lo.toNat + 256 * hi.toNat

/-- 00_scope.md section 3: COMMAND_LEN is 3 or 4 and nothing else, and this spec takes 4. -/
def Obligations.CommandLenIsThreeOrFour : Prop :=
  (∀ n, (∃ c, CommandLen.ofNat? n = some c ∧ c.bytes = n) ↔ n = 3 ∨ n = 4) ∧ Config.spec.commandLen.bytes = 4

/-- 30_encoding.md section 4: the command opcodes and telemetry status codes the source names, and their 16-bit field
values, the codes zero-extended. -/
def Obligations.NamedWireCodes : Prop :=
  CommandName.standby.code = 0xC0 ∧ CommandName.heartbeat.code = 0xA0
    ∧ (∀ n, (CommandName.testA n).code.toNat = 0xA1 + n.val) ∧ (∀ n, (CommandName.testE n).code.toNat = 0xE0 + n.val)
    ∧ (∀ c : CommandName, c.field.toNat = c.code.toNat)
    ∧ TlmStatus.ok.code = 0xAA ∧ TlmStatus.hello.code = 0xAF ∧ TlmStatus.adcsError.code = 0xF0
    ∧ TlmStatus.commError.code = 0x99 ∧ TlmStatus.testStart.code = 0xB0 ∧ TlmStatus.testEnd.code = 0xB1
    ∧ TlmStatus.fudged.code = 0x00 ∧ ∀ t : TlmStatus, t.field.toNat = t.code.toNat

/-- 30_encoding.md section 6: the words the notation builds, for each of the ten mnemonics and each of the four
pseudo-operations: the OP of the operation, its operands at their bits, and every bit the table does not set 0; a line with
an operand out of range builds none. `fx.enc` is here with raw bits; its decimal literals are the statement
`DecimalLiteralIsNearestBinary32`. -/
def Obligations.AssembledWordsSetOnlyTheirOperands : Prop :=
  assembleWords .crcInit = some [opWord 0x10 0 0 0] ∧ assembleWords .crcRead = some [opWord 0x12 0 0 0]
    ∧ assembleWords .rxReset = some [opWord 0x02 0 0 0]
    ∧ (∀ n, assembleWords (.crcFeed n) = if n < 256 then some [opWord 0x11 (BitVec.ofNat 32 n) 0 0] else none)
    ∧ (∀ n, assembleWords (.rxByte n) = if n < 256 then some [opWord 0x01 (BitVec.ofNat 32 n) 0 0] else none)
    ∧ (∀ n, assembleWords (.crcCheck n) = if n < 65536 then some [opWord 0x13 0 (BitVec.ofNat 16 n) 0] else none)
    ∧ (∀ n, assembleWords (.cmdEnc n) = if n < 65536 then some [opWord 0x30 (BitVec.ofNat 32 n) 0 0] else none)
    ∧ (∀ n, assembleWords (.fxEnc (.raw n)) = if n < 4294967296 then some [opWord 0x20 (BitVec.ofNat 32 n) 0 0] else none)
    ∧ (∀ x : Int, assembleWords (.fxDec x)
        = if -128 ≤ x ∧ x ≤ 255 then some [opWord 0x21 (BitVec.ofNat 32 (x % 256).toNat) 0 0] else none)
    ∧ (∀ s v i sp mx my mz gx gy gz : Nat, assembleWords (.tlmEnc s v i sp mx my mz gx gy gz)
        = if s < 65536 ∧ i < 65536 ∧ v < 256 ∧ sp < 256 ∧ mx < 256 ∧ my < 256 ∧ mz < 256 ∧ gx < 256 ∧ gy < 256 ∧ gz < 256
          then some [opWord 0x31 (BitVec.ofNat 32 (s + 2 ^ 16 * i)) (BitVec.ofNat 16 (v + 2 ^ 8 * sp))
            (BitVec.ofNat 48 (mx + 2 ^ 8 * my + 2 ^ 16 * mz + 2 ^ 24 * gx + 2 ^ 32 * gy + 2 ^ 40 * gz))]
          else none)
    ∧ (∀ bs, assembleWords (.crcOf bs) = if ∀ b ∈ bs, b < 256
        then some (opWord 0x10 0 0 0 :: bs.map (fun b => opWord 0x11 (BitVec.ofNat 32 b) 0 0) ++ [opWord 0x12 0 0 0])
        else none)
    ∧ (∀ bs d, assembleWords (.crcVerify bs d) = if (∀ b ∈ bs, b < 256) ∧ d < 65536
        then some (opWord 0x10 0 0 0 :: bs.map (fun b => opWord 0x11 (BitVec.ofNat 32 b) 0 0)
          ++ [opWord 0x13 0 (BitVec.ofNat 16 d) 0])
        else none)
    ∧ (∀ bs, assembleWords (.rxFrame bs) = if ∀ b ∈ bs, b < 256
        then some (bs.map fun b => opWord 0x01 (BitVec.ofNat 32 b) 0 0) else none)
    ∧ ∀ n, assembleWords (.tlmStatus n) = if n < 65536 then some [opWord 0x31 (BitVec.ofNat 32 n) 0 0] else none

/-- R81: CrcFinal bit by bit: bit 15 - i of the register when CRC_REFOUT is set and bit i when it is not, XORed with bit i of
CRC_XOROUT; with the spec's parameters it is the register itself. -/
def Obligations.CrcFinalReflectsThenXors : Prop :=
  (∀ (p : CrcParams) (acc : Half) (i : Nat), i < 16 → (crcFinal p acc).getLsbD i
      = ((if p.refout = true then acc.getLsbD (15 - i) else acc.getLsbD i) ^^ p.xorout.getLsbD i))
    ∧ ∀ acc : Half, crcFinal Config.spec.crc acc = acc

/-- 30_encoding.md section 6, the decimal literals of `fx.enc`: the one word built carries the binary32 nearest to the written
number, with its sign. What happens halfway between two binary32 values (the even one is taken), beyond the largest finite
one (no word is built once the magnitude would round past it) and for a nonzero literal that rounds to zero (the zero of
its sign is taken, which the clause on `a.msb` covers) is the MODEL's choice (PRESUMED, log entry 16). -/
def Obligations.DecimalLiteralIsNearestBinary32 : Prop :=
  ∀ (neg : Bool) (digits : Nat) (exp10 : Int),
    let v : ℚ := (if neg then -1 else 1) * digits * (10 : ℚ) ^ exp10
    (|v| < (2 ^ 25 - 1) * 2 ^ 103 → ∃ a q, assembleWords (.fxEnc (.decimal neg digits exp10)) = some [opWord 0x20 a 0 0]
      ∧ f32Real a = some q ∧ a.msb = neg
      ∧ ∀ b r, f32Real b = some r → |v - q| ≤ |v - r| ∧ (|v - q| = |v - r| → r ≠ q → a.getLsbD 0 = false))
    ∧ ((2 ^ 25 - 1) * 2 ^ 103 ≤ |v| → assembleWords (.fxEnc (.decimal neg digits exp10)) = none)
end

