-- ==== Sys2Proof/Laws/State.lean ====
section
/-! SUPPORT. One lemma per field per update of State, so that no proof unfolds a record update. -/

namespace Sys2Proof.Machine

variable (s : State)

@[simp] theorem State.writeRxbuf_config (i : Nat) (b : Byte) : (s.writeRxbuf i b).config = s.config := rfl
@[simp] theorem State.writeRxbuf_rxbuf (i : Nat) (b : Byte) : (s.writeRxbuf i b).rxbuf = s.rxbuf.setIfInBounds i b := rfl
@[simp] theorem State.writeRxbuf_rxcnt (i : Nat) (b : Byte) : (s.writeRxbuf i b).rxcnt = s.rxcnt := rfl
@[simp] theorem State.writeRxbuf_crcAcc (i : Nat) (b : Byte) : (s.writeRxbuf i b).crcAcc = s.crcAcc := rfl
@[simp] theorem State.writeRxbuf_response (i : Nat) (b : Byte) : (s.writeRxbuf i b).response = s.response := rfl
@[simp] theorem State.writeRxbuf_inputs (i : Nat) (b : Byte) : (s.writeRxbuf i b).inputs = s.inputs := rfl

@[simp] theorem State.setRxcnt_config (n : Nat) : (s.setRxcnt n).config = s.config := rfl
@[simp] theorem State.setRxcnt_rxbuf (n : Nat) : (s.setRxcnt n).rxbuf = s.rxbuf := rfl
@[simp] theorem State.setRxcnt_rxcnt (n : Nat) : (s.setRxcnt n).rxcnt = BitVec.ofNat 3 n := rfl
@[simp] theorem State.setRxcnt_crcAcc (n : Nat) : (s.setRxcnt n).crcAcc = s.crcAcc := rfl
@[simp] theorem State.setRxcnt_response (n : Nat) : (s.setRxcnt n).response = s.response := rfl
@[simp] theorem State.setRxcnt_inputs (n : Nat) : (s.setRxcnt n).inputs = s.inputs := rfl

@[simp] theorem State.setCrcAcc_config (v : Half) : (s.setCrcAcc v).config = s.config := rfl
@[simp] theorem State.setCrcAcc_rxbuf (v : Half) : (s.setCrcAcc v).rxbuf = s.rxbuf := rfl
@[simp] theorem State.setCrcAcc_rxcnt (v : Half) : (s.setCrcAcc v).rxcnt = s.rxcnt := rfl
@[simp] theorem State.setCrcAcc_crcAcc (v : Half) : (s.setCrcAcc v).crcAcc = v := rfl
@[simp] theorem State.setCrcAcc_response (v : Half) : (s.setCrcAcc v).response = s.response := rfl
@[simp] theorem State.setCrcAcc_inputs (v : Half) : (s.setCrcAcc v).inputs = s.inputs := rfl

@[simp] theorem State.respond_config (st : Status) (r : Word32) (out : List Byte) : (s.respond st r out).config = s.config := rfl
@[simp] theorem State.respond_rxbuf (st : Status) (r : Word32) (out : List Byte) : (s.respond st r out).rxbuf = s.rxbuf := rfl
@[simp] theorem State.respond_rxcnt (st : Status) (r : Word32) (out : List Byte) : (s.respond st r out).rxcnt = s.rxcnt := rfl
@[simp] theorem State.respond_crcAcc (st : Status) (r : Word32) (out : List Byte) : (s.respond st r out).crcAcc = s.crcAcc := rfl
@[simp] theorem State.respond_response (st : Status) (r : Word32) (out : List Byte) : (s.respond st r out).response = some (mkResponse st r out) := rfl
@[simp] theorem State.respond_inputs (st : Status) (r : Word32) (out : List Byte) : (s.respond st r out).inputs = s.inputs := rfl

@[simp] theorem State.reportIllegalOp_config : (s.reportIllegalOp).config = s.config := rfl
@[simp] theorem State.reportIllegalOp_rxbuf : (s.reportIllegalOp).rxbuf = s.rxbuf := rfl
@[simp] theorem State.reportIllegalOp_rxcnt : (s.reportIllegalOp).rxcnt = s.rxcnt := rfl
@[simp] theorem State.reportIllegalOp_crcAcc : (s.reportIllegalOp).crcAcc = s.crcAcc := rfl
@[simp] theorem State.reportIllegalOp_response : (s.reportIllegalOp).response = some (mkResponse .illegalOp 0 []) := rfl
@[simp] theorem State.reportIllegalOp_inputs : (s.reportIllegalOp).inputs = s.inputs := rfl

@[simp] theorem State.reportBuilt_config (f : List Byte) : (s.reportBuilt f).config = s.config := rfl
@[simp] theorem State.reportBuilt_rxbuf (f : List Byte) : (s.reportBuilt f).rxbuf = s.rxbuf := rfl
@[simp] theorem State.reportBuilt_rxcnt (f : List Byte) : (s.reportBuilt f).rxcnt = s.rxcnt := rfl
@[simp] theorem State.reportBuilt_crcAcc (f : List Byte) : (s.reportBuilt f).crcAcc = s.crcAcc := rfl
@[simp] theorem State.reportBuilt_response (f : List Byte) : (s.reportBuilt f).response = some (mkResponse .ok (zext32 16 (frameCrcField f)) f) := rfl
@[simp] theorem State.reportBuilt_inputs (f : List Byte) : (s.reportBuilt f).inputs = s.inputs := rfl

@[simp] theorem State.takeReset_config : (s.takeReset).config = s.config := rfl
@[simp] theorem State.takeReset_rxbuf : (s.takeReset).rxbuf = Vector.replicate 4 0 := rfl
@[simp] theorem State.takeReset_rxcnt : (s.takeReset).rxcnt = 0 := rfl
@[simp] theorem State.takeReset_crcAcc : (s.takeReset).crcAcc = s.config.crc.init := rfl
@[simp] theorem State.takeReset_response : (s.takeReset).response = none := rfl
@[simp] theorem State.takeReset_inputs : (s.takeReset).inputs = s.inputs := rfl

@[simp] theorem State.idle_config : (s.idle).config = s.config := rfl
@[simp] theorem State.idle_rxbuf : (s.idle).rxbuf = s.rxbuf := rfl
@[simp] theorem State.idle_rxcnt : (s.idle).rxcnt = s.rxcnt := rfl
@[simp] theorem State.idle_crcAcc : (s.idle).crcAcc = s.crcAcc := rfl
@[simp] theorem State.idle_response : (s.idle).response = none := rfl
@[simp] theorem State.idle_inputs : (s.idle).inputs = s.inputs := rfl

@[simp] theorem State.presentNext_config (x : Input) : (s.presentNext x).config = s.config := rfl
@[simp] theorem State.presentNext_rxbuf (x : Input) : (s.presentNext x).rxbuf = s.rxbuf := rfl
@[simp] theorem State.presentNext_rxcnt (x : Input) : (s.presentNext x).rxcnt = s.rxcnt := rfl
@[simp] theorem State.presentNext_crcAcc (x : Input) : (s.presentNext x).crcAcc = s.crcAcc := rfl
@[simp] theorem State.presentNext_response (x : Input) : (s.presentNext x).response = s.response := rfl
@[simp] theorem State.presentNext_inputs (x : Input) : (s.presentNext x).inputs = x :: s.inputs := rfl

@[simp] theorem State.writeRxbuf_commandLen (i : Nat) (b : Byte) : (s.writeRxbuf i b).commandLen = s.commandLen := rfl
@[simp] theorem State.setRxcnt_commandLen (n : Nat) : (s.setRxcnt n).commandLen = s.commandLen := rfl
@[simp] theorem State.setRxcnt_readRxbuf (n i : Nat) : (s.setRxcnt n).readRxbuf i = s.readRxbuf i := rfl
@[simp] theorem State.respond_readRxbuf (st : Status) (r : Word32) (out : List Byte) (i : Nat) :
    (s.respond st r out).readRxbuf i = s.readRxbuf i := rfl

end Sys2Proof.Machine
end

