-- ==== Sys2Proof/Laws/Ops.lean ====
section
/-! SUPPORT. For each shared operation, what it can do, said once. -/

namespace Sys2Proof.Machine

/-! ### Responses -/

@[simp] theorem mkResponse_st (st : Status) (r : Word32) (out : List Byte) : (mkResponse st r out).st = st.code := rfl

@[simp] theorem mkResponse_r (st : Status) (r : Word32) (out : List Byte) : (mkResponse st r out).r = r := rfl

/-- OUTLEN is the length of OUT, for an OUT that fits (R53). -/
theorem mkResponse_outlen (st : Status) (r : Word32) (out : List Byte) (h : out.length ≤ packetLen) :
    (mkResponse st r out).outlen.toNat = out.length := by
  simp only [mkResponse, BitVec.toNat_ofNat, packetLen] at *
  omega

/-- The bytes of OUT, 0 from OUTLEN on (R55). -/
theorem mkResponse_out (st : Status) (r : Word32) (out : List Byte) (i : Nat) (h : i < packetLen) :
    (mkResponse st r out).out[i] = out.getD i 0 := by
  simp [mkResponse]

/-- The valid bytes of a response are the OUT it was made with. -/
theorem mkResponse_bytes (st : Status) (r : Word32) (out : List Byte) (h : out.length ≤ packetLen) :
    (mkResponse st r out).bytes = out := by
  unfold Response.bytes
  rw [mkResponse_outlen st r out h]
  apply List.ext_getElem
  · simpa using h
  · intro i h₁ h₂
    simp [mkResponse, h₂]

/-- Every status code is one of R54. -/
theorem Status.code_legal (st : Status) : st.code ∈ legalStatusCodes := by cases st <;> decide

/-- The statuses that report no error are those with the codes 0x00 to 0x02 (R54). -/
theorem Status.isError_iff_code (st : Status) : st.isError = true ↔ st.code ∉ ([0x00, 0x01, 0x02] : List Byte) := by
  cases st <;> decide

/-- Whatever an operation answers is a response R53 to R55 allow. -/
theorem mkResponse_wellFormed (st : Status) (r : Word32) (out : List Byte) (h : out.length ≤ packetLen) :
    (mkResponse st r out).wellFormed = true := by
  have hz : ∀ b ∈ (mkResponse st r out).out.toList.drop out.length, b = 0 := by
    intro b hb
    obtain ⟨i, hi, rfl⟩ := List.mem_iff_getElem.1 hb
    simp [mkResponse]
  have hall : ((mkResponse st r out).out.toList.drop out.length).all (· == 0) = true :=
    List.all_eq_true.2 fun b hb => beq_iff_eq.2 (hz b hb)
  unfold Response.wellFormed
  rw [mkResponse_outlen st r out h, mkResponse_st, hall, decide_eq_true st.code_legal, decide_eq_true h]
  rfl

/-- `respond` shows on the port exactly what it is given. -/
theorem State.respond_answers (s : State) (st : Status) (r : Word32) (out : List Byte) (h : out.length ≤ packetLen) :
    (s.respond st r out).Answers st.code r out :=
  ⟨_, rfl, rfl, rfl, mkResponse_outlen st r out h, fun i => mkResponse_out st r out i.val i.isLt⟩

/-- A state answers at most one way. -/
theorem State.Answers.st_eq {s : State} {st st' : Byte} {r r' : Word32} {out out' : List Byte}
    (h : s.Answers st r out) (h' : s.Answers st' r' out') : st = st' ∧ r = r' := by
  obtain ⟨a, ha, rfl, rfl, -⟩ := h
  obtain ⟨b, hb, rfl, rfl, -⟩ := h'
  rw [ha] at hb
  exact ⟨congrArg Response.st (Option.some.inj hb), congrArg Response.r (Option.some.inj hb)⟩

/-! ### RXBUF -/

/-- A byte written in range is read back. -/
theorem State.readRxbuf_writeRxbuf_same (s : State) (i : Nat) (b : Byte) (h : i < 4) :
    (s.writeRxbuf i b).readRxbuf i = b := by
  simp [State.readRxbuf, State.writeRxbuf, Vector.toList_setIfInBounds, List.getD, h]

/-- A write leaves every other element alone. -/
theorem State.readRxbuf_writeRxbuf_other (s : State) (i j : Nat) (b : Byte) (h : j ≠ i) :
    (s.writeRxbuf i b).readRxbuf j = s.readRxbuf j := by
  simp [State.readRxbuf, State.writeRxbuf, Vector.toList_setIfInBounds, List.getD, List.getElem?_set_ne h.symm]

/-- The frame has COMMAND_LEN bytes, each read from RXBUF. -/
@[simp] theorem State.frame_length (s : State) : s.frame.length = s.commandLen := by simp [State.frame]

theorem State.frame_getElem (s : State) (i : Nat) (h : i < s.frame.length) : s.frame[i] = s.readRxbuf i := by
  simp [State.frame]

theorem State.commandLen_cases (s : State) : s.commandLen = 3 ∨ s.commandLen = 4 := by
  unfold State.commandLen
  cases s.config.commandLen <;> decide

/-! ### Frames -/

@[simp] theorem withCrc_length (p : CrcParams) (body : List Byte) : (withCrc p body).length = body.length + 2 := by
  simp [withCrc, wire16]

/-- The opcode field has OPCODE_BYTES bytes (R6). -/
theorem cmdBody_length (n : CommandLen) (o : Half) : (cmdBody n o).length = n.opcodeBytes := by cases n <;> rfl

@[simp] theorem cmdFrame_length (c : Config) (o : Half) : (cmdFrame c o).length = c.commandLen.bytes := by
  unfold cmdFrame cmdBody
  cases c.commandLen <;> rfl

/-- Reporting a frame changes only the response, which carries the frame under one of the two frame statuses. -/
theorem State.reportFrame_cases (s : State) (frame : List Byte) :
    ((validate s.config frame).ok = true ∧ s.reportFrame frame
        = s.respond .frameOk ((validate s.config frame).computed ++ (validate s.config frame).opcode) frame)
    ∨ ((validate s.config frame).ok = false ∧ s.reportFrame frame
        = s.respond .frameCrcErr ((validate s.config frame).computed ++ (0 : Half)) frame) := by
  unfold State.reportFrame
  by_cases h : (validate s.config frame).ok = true
  · exact .inl ⟨h, by simp [h]⟩
  · exact .inr ⟨by simpa using h, by simp [h]⟩

/-! ### The port -/

theorem State.accept_nil {s : State} (h : s.inputs = []) : s.accept = none := by simp [State.accept, h]

theorem State.accept_cons {s : State} {x : Input} {rest : List Input} (h : s.inputs = x :: rest) :
    s.accept = some (x, { s with inputs := rest }) := by simp [State.accept, h]

theorem perform_instr {w : OpWord} {i : Instr} (s : State) (h : decode w = .instr i) : perform w s = exec i s := by
  simp [perform, h]

theorem perform_reserved {w : OpWord} {op : Byte} (s : State) (h : decode w = .reserved op) :
    perform w s = .next s.reportIllegalOp := by simp [perform, h]

theorem step_reset {s : State} {rest : List Input} (h : s.inputs = .reset :: rest) :
    step s = .next (State.resetWith s.config rest) := by
  simp [step, State.accept_cons h, State.takeReset]

end Sys2Proof.Machine
end

