-- ==== Sys2Proof/Laws/Exec.lean ====
section
/-! SUPPORT. For each operation, every next state it can give. -/

namespace Sys2Proof.Machine

/-- RX_BYTE either appends to the partial frame or completes it. -/
theorem execRxByte_cases (b : Byte) (s : State) :
    (s.rxcnt.toNat + 1 < s.commandLen ∧ execRxByte b s
        = .next (((s.writeRxbuf s.rxcnt.toNat b).setRxcnt (s.rxcnt.toNat + 1)).respond .pending
            (BitVec.ofNat 32 (s.rxcnt.toNat + 1)) []))
    ∨ (s.commandLen ≤ s.rxcnt.toNat + 1 ∧ execRxByte b s
        = .next (((s.writeRxbuf s.rxcnt.toNat b).setRxcnt 0).reportFrame (s.writeRxbuf s.rxcnt.toNat b).frame)) := by
  unfold execRxByte
  by_cases h : s.rxcnt.toNat + 1 < s.commandLen
  · exact .inl ⟨h, by simp [h]⟩
  · exact .inr ⟨by omega, by simp [h]⟩

/-- RX_RESET reports whether it discards anything. -/
theorem execRxReset_cases (s : State) :
    (s.rxcnt = 0 ∧ execRxReset s = .next ((s.setRxcnt 0).respond .ok 0 []))
    ∨ (s.rxcnt ≠ 0 ∧ execRxReset s = .next ((s.setRxcnt 0).respond .flushPartial (s.rxcnt.setWidth 32) [])) := by
  unfold execRxReset
  by_cases h : s.rxcnt = 0
  · exact .inl ⟨h, by simp [h]⟩
  · exact .inr ⟨h, congrArg _ (if_neg h)⟩

/-- CRC_CHECK changes nothing but the response. -/
theorem execCrcCheck_eq (d : Half) (s : State) :
    execCrcCheck d s = .next (s.respond (if crcFinal s.config.crc s.crcAcc = d then .ok else .crcMismatch)
      ((crcFinal s.config.crc s.crcAcc).setWidth 32) []) := rfl

/-- FX_ENC changes nothing but the response. -/
theorem execFxEnc_eq (f : Word32) (s : State) :
    execFxEnc f s = .next (s.respond (fxEncode s.config.roundTies s.config.ovfMode f).1
      ((fxEncode s.config.roundTies s.config.ovfMode f).2.setWidth 32) []) := rfl

end Sys2Proof.Machine
end

