-- ==== Sys2Proof/Laws/Run.lean ====
section
/-! SUPPORT. Runs and traces, one step at a time, over inputs that are encoded operations. -/

namespace Sys2Proof.Machine

/-- A run whose first step answers `t` goes on from `t`. -/
theorem run_succ {s t : State} (n : Nat) (h : step s = .next t) :
    Host.Core.run Sys2Proof.core (n + 1) s = Host.Core.run Sys2Proof.core n t := by
  have h' : Sys2Proof.core.step s = .next t := h
  simp only [Host.Core.run, h']

/-- A run of no steps. -/
theorem run_zero (s : State) : Host.Core.run Sys2Proof.core 0 s = .next s := rfl

/-- A run in two parts. -/
theorem run_add {s t : State} (m n : Nat) (h : Host.Core.run Sys2Proof.core m s = .next t) :
    Host.Core.run Sys2Proof.core (m + n) s = Host.Core.run Sys2Proof.core n t := by
  induction m generalizing s with
  | zero =>
    cases h
    rw [Nat.zero_add]
  | succ m ih =>
    rw [Nat.succ_add]
    cases hs : Sys2Proof.core.step s with
    | next u =>
      simp only [Host.Core.run, hs] at h ⊢
      exact ih h
    | fault r => simp [Host.Core.run, hs] at h
    | refused r => simp [Host.Core.run, hs] at h

/-- The trace of a run whose first step answers `t`. -/
theorem trace_succ {s t : State} (n : Nat) (h : step s = .next t) : trace (n + 1) s = t.response :: trace n t := by
  simp [trace, h]

@[simp] theorem asInputs_nil : asInputs [] = [] := rfl

@[simp] theorem asInputs_cons (i : Instr) (is : List Instr) : asInputs (i :: is) = .op (encode i) :: asInputs is := rfl

@[simp] theorem asInputs_append (is js : List Instr) : asInputs (is ++ js) = asInputs is ++ asInputs js := by
  simp [asInputs]

@[simp] theorem asInputs_length (is : List Instr) : (asInputs is).length = is.length := by simp [asInputs]

end Sys2Proof.Machine
end

