-- ==== Sys2Proof/Laws/Asm.lean ====
section
/-! SUPPORT. What assembling a line can do: an ill-formed line stands for nothing, and a well-formed one for the encodings of
its operations. -/

namespace Sys2Proof.Machine

theorem assemble_illFormed {l : AsmLine} (h : l.wellFormed = false) : assemble l = none := by simp [assemble, h]

theorem assembleWords_illFormed {l : AsmLine} (h : l.wellFormed = false) : assembleWords l = none := by
  simp [assembleWords, assemble_illFormed h]

theorem assembleWords_of_assemble {l : AsmLine} {is : List Instr} (h : assemble l = some is) :
    assembleWords l = some (is.map encode) := by simp [assembleWords, h]

/-- Only a well-formed line stands for anything. -/
theorem wellFormed_of_assemble {l : AsmLine} {is : List Instr} (h : assemble l = some is) : l.wellFormed = true := by
  by_contra hl
  rw [assemble_illFormed (by simpa using hl)] at h
  cases h

@[simp] theorem inU8_eq_true (n : Nat) : inU8 n = true ↔ n < 256 := by simp [inU8]

@[simp] theorem inU16_eq_true (n : Nat) : inU16 n = true ↔ n < 65536 := by simp [inU16]

@[simp] theorem inFxByte_eq_true (n : Int) : inFxByte n = true ↔ -128 ≤ n ∧ n ≤ 255 := by simp [inFxByte]

end Sys2Proof.Machine
end

