-- ==== Sys2Proof/Laws/PerInstr.lean ====
section
/-! SUPPORT. A law of each operation as syntax: its encoding carries its own OP value in the OP field. -/

namespace Sys2Proof.Laws.EncodeOp

open Sys2Proof

/-- The OP field of the encoding of `i` is the OP value of `i` (30_encoding.md R50, R56). -/
def Statement (i : Instr) : Prop := opField (encode i) = i.op

theorem opField_opWord (op : Byte) (a : Word32) (b : Half) (c : Word48) : opField (opWord op a b c) = op := by
  exact BitVec.extractLsb'_append_eq_right

theorem rxByte (b : Byte) : Statement (.rxByte b) := opField_opWord _ _ _ _

theorem rxReset : Statement .rxReset := opField_opWord _ _ _ _

theorem crcInit : Statement .crcInit := opField_opWord _ _ _ _

theorem crcFeed (b : Byte) : Statement (.crcFeed b) := opField_opWord _ _ _ _

theorem crcRead : Statement .crcRead := opField_opWord _ _ _ _

theorem crcCheck (declared : Half) : Statement (.crcCheck declared) := opField_opWord _ _ _ _

theorem fxEnc (f : Word32) : Statement (.fxEnc f) := opField_opWord _ _ _ _

theorem fxDec (x : Byte) : Statement (.fxDec x) := opField_opWord _ _ _ _

theorem cmdEnc (opcode : Half) : Statement (.cmdEnc opcode) := opField_opWord _ _ _ _

theorem tlmEnc (status : Half) (voltage : Byte) (current : Half) (speed magX magY magZ gyroX gyroY gyroZ : Byte) :
    Statement (.tlmEnc status voltage current speed magX magY magZ gyroX gyroY gyroZ) := opField_opWord _ _ _ _

end Sys2Proof.Laws.EncodeOp
end

