-- ==== Sys2Proof/Tests/Slice0.lean ====
section
/-! SUPPORT. Tests of the model, and witnesses for the premises of the statements. Expected values are those of
spec/95_test_vectors.md, named by their vector. -/

namespace Sys2Proof.Tests

open Sys2Proof Sys2Proof.Machine

/-! ### Helpers -/

/-- The state a result holds, where it is a next state. -/
def nextOf : Host.Outcome State Fault Refusal → Option State
  | .next t => some t
  | .fault _ | .refused _ => none

/-- A state with the given parameters, partial frame (at most four bytes) and CRC register. -/
def mk (c : Config) (partialFrame : List Byte) (acc : Half) : State :=
  { State.resetWith c [] with
    rxbuf := Vector.ofFn fun i => partialFrame.getD i.val 0, rxcnt := BitVec.ofNat 3 partialFrame.length, crcAcc := acc }

/-- The parameters of this spec with a 3-byte command frame. -/
def spec3 : Config := { Config.spec with commandLen := .three }

/-- What the port shows after one operation: ST, R and the valid bytes of OUT. -/
def answer (i : Instr) (s : State) : Option (Byte × Word32 × List Byte) :=
  (nextOf (exec i s)).bind fun t => t.response.map fun resp => (resp.st, resp.r, resp.bytes)

/-- RXCNT and CRC_ACC after one operation. -/
def counters (i : Instr) (s : State) : Option (BitVec 3 × Half) := (nextOf (exec i s)).map fun t => (t.rxcnt, t.crcAcc)

/-! ### Decoding: a word of each operation, from the encoding the spec gives -/

theorem test_decode_rxByte : decode 0x0000000000000000000000C001 = .instr (.rxByte 0xC0) := by decide
theorem test_decode_rxReset : decode 0x00000000000000000000000002 = .instr .rxReset := by decide
theorem test_decode_crcInit : decode 0x00000000000000000000000010 = .instr .crcInit := by decide
theorem test_decode_crcFeed_unused_bits : decode 0x0000000000000000FFFFFFC011 = .instr (.crcFeed 0xC0) := by decide
theorem test_decode_crcRead : decode 0x00000000000000000000000012 = .instr .crcRead := by decide
theorem test_decode_crcCheck : decode 0x00000000000038BC0000000013 = .instr (.crcCheck 0x38BC) := by decide
theorem test_decode_fxEnc : decode 0x00000000000000003F80000020 = .instr (.fxEnc 0x3F800000) := by decide
theorem test_decode_fxDec_unused_bits : decode 0x00000000000000001234560821 = .instr (.fxDec 0x08) := by decide
theorem test_decode_cmdEnc : decode 0x0000000000000000000001C030 = .instr (.cmdEnc 0x01C0) := by decide
theorem test_decode_tlmEnc : decode 0x7F8001010203807FBEEF123431
    = .instr (.tlmEnc 0x1234 0x7F 0xBEEF 0x80 0x03 0x02 0x01 0x01 0x80 0x7F) := by decide
theorem test_decode_reserved : decode 0xFFFFFFFFFFFFFFFFFFFFFFFF00 = .reserved 0x00 := by decide
theorem test_encode_tlmEnc : encode (.tlmEnc 0x00AA 0x1A 0x0123 0x40 0x10 0x20 0x30 0x04 0xF6 0x20)
    = 0x20F604302010401A012300AA31 := by decide
theorem test_decodeTableWord : decodeTableWord 8 0x13 = some (.crcCheck 0) := by decide
theorem test_decodeTableWord_reserved : decodeTableWord 8 0x03 = none := by decide

/-! ### Well-formedness: an ill-formed line for each check -/

theorem test_illFormed_byte : AsmLine.wellFormed (.crcFeed 256) = false ∧ AsmLine.wellFormed (.rxByte 256) = false := by decide
theorem test_illFormed_half : AsmLine.wellFormed (.crcCheck 65536) = false ∧ AsmLine.wellFormed (.cmdEnc 65536) = false := by
  decide
theorem test_illFormed_fxDec : AsmLine.wellFormed (.fxDec 256) = false ∧ AsmLine.wellFormed (.fxDec (-129)) = false := by decide
theorem test_illFormed_float : AsmLine.wellFormed (.fxEnc (.raw 4294967296)) = false := by decide
theorem test_illFormed_tlm : AsmLine.wellFormed (.tlmEnc 0 0 0 0 0 0 0 0 0 256) = false
    ∧ AsmLine.wellFormed (.tlmStatus 65536) = false := by decide
theorem test_illFormed_lists : AsmLine.wellFormed (.crcOf [1, 256]) = false
    ∧ AsmLine.wellFormed (.crcVerify [1] 65536) = false ∧ AsmLine.wellFormed (.rxFrame [256]) = false := by decide
theorem test_illFormed_is_not_assembled : assemble (.rxByte 256) = none := by decide
/-- 92_eei_decisions.md D6: every COMMAND_LEN but 3 and 4 is refused. -/
theorem test_commandLen_refused : CommandLen.ofNat? 2 = none ∧ CommandLen.ofNat? 5 = none := by decide
/-- V-TLM-8, through the notation. -/
theorem test_assemble_tlm : assembleWords (.tlmEnc 0x00AA 0x1A 0x0123 0x40 0x10 0x20 0x30 0x04 0xF6 0x20)
    = some [0x20F604302010401A012300AA31] := by decide
/-- The float operands of V-FX-8 and V-FX-9. -/
theorem test_float_literals : floatBits? (.decimal false 314159 (-5)) = some 0x40490FD0
    ∧ floatBits? (.decimal true 73 (-1)) = some 0xC0E9999A := by decide +kernel

/-- R81 with reflection and a final XOR, by hand: 0x0001 reflected is 0x8000, and XOR 0xFFFF gives 0x7FFF. -/
theorem test_crcFinal_reflected : crcFinal { CrcParams.ibm3740 with refout := true, xorout := 0xFFFF } 0x0001 = 0x7FFF := by
  decide
/-- The ends of the finite range (log entry 16). -/
theorem test_float_literal_range : floatBits? (.decimal false ((2 ^ 25 - 1) * 2 ^ 103 - 1) 0) = some 0x7F7FFFFF
    ∧ floatBits? (.decimal false ((2 ^ 25 - 1) * 2 ^ 103) 0) = none := by decide +kernel

/-! ### Operations -/

/-- V-RX-1, the last byte. -/
theorem test_rxByte_frame_ok : answer (.rxByte 0x0B) (mk Config.spec [0xC0, 0x00, 0x5B] 0xFFFF)
    = some (0x02, 0x0B5B00C0, [0xC0, 0x00, 0x5B, 0x0B]) := by decide +kernel
/-- V-RX-13, the last byte (COMMAND_LEN = 3). -/
theorem test_rxByte_crc_error : answer (.rxByte 0x55) (mk spec3 [0xA0, 0x1A] 0xFFFF)
    = some (0x03, 0x541A0000, [0xA0, 0x1A, 0x55]) := by decide +kernel
/-- V-RX-16. -/
theorem test_rxReset_flush : answer .rxReset (mk Config.spec [1, 2, 3] 0xFFFF) = some (0x04, 3, []) := by decide
/-- V-RX-15. -/
theorem test_rxReset_empty : answer .rxReset (mk Config.spec [] 0xFFFF) = some (0x00, 0, []) := by decide
/-- V-CRC-20. -/
theorem test_crcInit_keeps_frame : counters .crcInit (mk Config.spec [0xC0] 0x1234) = some (1, 0xFFFF) := by decide
/-- V-CRC-15, the third byte. -/
theorem test_crcFeed : counters (.crcFeed 0x33) (mk Config.spec [] 0x3DBA) = some (0, 0x5BCE) := by decide
/-- V-CRC-15. -/
theorem test_crcRead : answer .crcRead (mk Config.spec [] 0x5349) = some (0x00, 0x00005349, []) := by decide
/-- V-CRC-18. -/
theorem test_crcCheck_match : answer (.crcCheck 0x38BC) (mk Config.spec [] 0x38BC) = some (0x00, 0x000038BC, []) := by decide
/-- V-CRC-18. -/
theorem test_crcCheck_mismatch : answer (.crcCheck 0xBC38) (mk Config.spec [] 0x38BC) = some (0x06, 0x000038BC, []) := by
  decide
/-- V-FX-15: a tie at the edge of the range. -/
theorem test_fxEnc_away_overflows : answer (.fxEnc 0xC1808000) (mk Config.spec [] 0xFFFF) = some (0x05, 0x80, []) := by decide +kernel
/-- V-FX-15 under EVEN and WRAP. -/
theorem test_fxEnc_even_fits : answer (.fxEnc 0xC1808000) (mk { Config.spec with roundTies := .even, ovfMode := .wrap } [] 0)
    = some (0x00, 0x80, []) := by decide +kernel
/-- V-FX-51. -/
theorem test_fxDec_negative : answer (.fxDec 0xEC) (mk Config.spec [] 0xFFFF) = some (0x00, 0xC0200000, []) := by decide
/-- V-FX-40. -/
theorem test_fxDec_zero : answer (.fxDec 0x00) (mk Config.spec [] 0xFFFF) = some (0x00, 0x00000000, []) := by decide
/-- V-CMD-14. -/
theorem test_cmdEnc : answer (.cmdEnc 0x01C0) (mk Config.spec [] 0xFFFF)
    = some (0x00, 0x00001B7A, [0xC0, 0x01, 0x7A, 0x1B]) := by decide +kernel
/-- V-CMD-14 with COMMAND_LEN = 3. -/
theorem test_cmdEnc_three : answer (.cmdEnc 0x01C0) (mk spec3 [] 0xFFFF) = some (0x00, 0x000038BC, [0xC0, 0xBC, 0x38]) := by decide +kernel
/-- V-TLM-10. -/
theorem test_tlmEnc : answer (.tlmEnc 0x1234 0x7F 0xBEEF 0x80 0x03 0x02 0x01 0x01 0x80 0x7F) (mk Config.spec [] 0xFFFF)
    = some (0x00, 0x0000A212, [0x34, 0x12, 0x7F, 0xEF, 0xBE, 0x80, 0x03, 0x02, 0x01, 0x01, 0x80, 0x7F, 0x12, 0xA2]) := by decide +kernel
/-- V-OP-2: a reserved OP in mid-frame. -/
theorem test_reserved_in_mid_frame :
    (nextOf (step { mk Config.spec [0xC0] 0xFFFF with inputs := [.op 0x03] })).map (fun t => (t.rxcnt, t.response))
      = some (1, some (mkResponse .illegalOp 0 [])) := by decide
/-- The word of an opcode-table row is what the next step runs. -/
theorem test_withFetchWord : step (State.reset.withFetchWord 8 0x10) = exec .crcInit State.reset := by rfl

/-! ### Witnesses: the premises of each statement can hold together, each clause at a boundary value -/

theorem witness_OpFieldAloneSelectsOperation :
    opField 0xFFFFFFFFFFFFFFFFFFFFFFFF31 ∈ ([0x01, 0x02, 0x10, 0x11, 0x12, 0x13, 0x20, 0x21, 0x30, 0x31] : List Byte)
    ∧ opField 0x32 ∉ ([0x01, 0x02, 0x10, 0x11, 0x12, 0x13, 0x20, 0x21, 0x30, 0x31] : List Byte) := by decide

theorem witness_UnreadOperandBitsAreIgnored : decode 0x0000000000000000000000C011 = .instr (.crcFeed 0xC0)
    ∧ 0xFFFFFFFFFFFFFFFFFFFFFFC011 &&& (Instr.crcFeed 0xC0).readMask
      = 0x0000000000000000000000C011 &&& (Instr.crcFeed 0xC0).readMask := by decide

/-- The two ends of each of the five ranges of reserved OP values. -/
theorem witness_ReservedOpAnswersIllegalOp :
    (State.reset.presentNext (.op 0x00)).inputs = .op 0x00 :: []
    ∧ ([0x00, 0x03, 0x0F, 0x14, 0x1F, 0x22, 0x2F, 0x32, 0xFF] : List OpWord).all (fun w =>
      let op := (opField w).toNat
      decide (op = 0x00 ∨ (0x03 ≤ op ∧ op ≤ 0x0F) ∨ (0x14 ≤ op ∧ op ≤ 0x1F) ∨ (0x22 ≤ op ∧ op ≤ 0x2F)
        ∨ (0x32 ≤ op ∧ op ≤ 0xFF))) = true := by decide

theorem witness_StepRunsDecodedOperation :
    (State.reset.presentNext (.op 0x10)).inputs = .op 0x10 :: [] ∧ decode 0x10 = .instr .crcInit := by decide

theorem witness_StepWithNothingPresentedIsIdle : State.reset.inputs = [] := rfl

theorem witness_ResetEventLeavesResetValues :
    ((mk spec3 [1, 2] 0).presentNext .reset).inputs = .reset :: [] := rfl

theorem witness_CrcReadReturnsCrc : State.reset.crcAcc
    = ([] : List Byte).foldl (crcStep State.reset.config.crc) State.reset.config.crc.init := rfl

/-- A matching and a mismatching declared CRC. -/
theorem witness_CrcCheckComparesDeclaredCrc : crcFinal State.reset.config.crc State.reset.crcAcc = 0xFFFF
    ∧ crcFinal State.reset.config.crc State.reset.crcAcc ≠ 0xFFFE := by decide

theorem witness_SingleBitChangeChangesCrc :
    CrcParams.ibm3740.poly.getLsbD 0 = true ∧ 1 < ([0xC0, 0x00] : List Byte).length ∧ 7 < 8 := by decide

/-- Finite, NaN, and the rounded values on both sides of each end of the byte range (V-FX-10, V-FX-12, V-FX-13, V-FX-15). -/
theorem witness_FxEncRoundsAndReports :
    f32IsNan 0x7FC00000 = true ∧ f32IsNan 0x7F800000 = false ∧ f32IsNan 0x417E0000 = false
    ∧ (f32Value 0x417E0000, f32Value 0x417F0000, f32Value 0xC1800000, f32Value 0xC1808000)
      = (.finite (127 * 2 ^ 146), .finite (255 * 2 ^ 145), .finite (-128 * 2 ^ 146), .finite (-257 * 2 ^ 145))
    ∧ fxRound .away (127 * 2 ^ 146) = 127 ∧ fxRound .away (255 * 2 ^ 145) = 128
    ∧ fxRound .away (-128 * 2 ^ 146) = -128 ∧ fxRound .away (-257 * 2 ^ 145) = -129
    ∧ fxRound .even (-257 * 2 ^ 145) = -128 := by decide +kernel

/-- A finite input in range and one out of range, at the upper bound. -/
theorem witness_FxEncRangeIsExact : f32Real 0x417E0000 = some (127 / 8) ∧ f32Real 0x417F0000 = some (255 / 16) := by
  decide +kernel

/-- The lower end of the interval, and a tie input inside it. -/
theorem witness_FxRoundTripWithinSixteenth : f32Real 0xC1800000 = some (-16) ∧ (-16 : ℚ) ≤ -16 ∧ (-16 : ℚ) ≤ 127 / 8
    ∧ f32Real 0x3D800000 = some (1 / 16) := by decide +kernel

theorem witness_FxEncIsMonotoneWhenSaturating :
    f32Real 0xC1800000 = some (-16) ∧ f32Real 0x417F0000 = some (255 / 16) ∧ (-16 : ℚ) ≤ 255 / 16 := by decide +kernel

/-- The bytes 0x00, 0x80 and 0xFF: zero, the most negative, and a negative number with the least exponent. -/
theorem witness_FxDecIsExact : (0x00000000#32).extractLsb' 0 8 = 0 ∧ (0x00000080#32).extractLsb' 0 8 ≠ 0
    ∧ ((0x00000080#32).extractLsb' 0 8).toInt < 0 ∧ ((0x000000FF#32).extractLsb' 0 8).toInt = -1 := by decide

/-- An incomplete frame one byte short of complete, and a complete one with a matching and with a mismatching CRC, for both
values of COMMAND_LEN. -/
theorem witness_RxByteAppendsOrCompletesFrame :
    (mk Config.spec [0xC0, 0x00] 0).rxcnt.toNat + 1 < Config.spec.commandLen.bytes
    ∧ (mk Config.spec [0xC0, 0x00, 0x5B] 0).rxcnt.toNat + 1 = Config.spec.commandLen.bytes
    ∧ (mk spec3 [0xC0] 0).rxcnt.toNat + 1 < spec3.commandLen.bytes
    ∧ (mk spec3 [0xC0, 0xBC] 0).rxcnt.toNat + 1 = spec3.commandLen.bytes
    ∧ crc16 CrcParams.ibm3740 [0xC0, 0x00] = 0x0B#8 ++ 0x5B#8 ∧ crc16 CrcParams.ibm3740 [0xC0, 0x00] ≠ 0x0C#8 ++ 0x5B#8
    ∧ crc16 CrcParams.ibm3740 [0xC0] = 0x38#8 ++ 0xBC#8 ∧ crc16 CrcParams.ibm3740 [0xC0] ≠ 0x39#8 ++ 0xBC#8 := by
  decide +kernel

theorem witness_RxResetFlushesPartialFrame :
    (mk Config.spec [] 0).rxcnt = 0 ∧ (mk Config.spec [1] 0).rxcnt ≠ 0 ∧ (mk Config.spec [1, 2, 3] 0).rxcnt ≠ 0 := by decide

theorem witness_FramingIsByCountAlone : State.reset.rxcnt = 0 := rfl

theorem witness_BuiltCommandFrameIsAccepted : (mk spec3 [] 0).rxcnt = 0 := rfl

/-- Two states that agree on what CRC_READ reads and differ elsewhere. -/
theorem witness_AccessTableHolds :
    mayWrite .crcRead .rxbuf = false ∧ (mk Config.spec [1] 7).config = (mk Config.spec [2, 3] 7).config
    ∧ (∀ it, mayRead .crcRead it = true → AgreeOn it (mk Config.spec [1] 7) (mk Config.spec [2, 3] 7))
    ∧ decode 0x00 = .reserved 0x00 := by
  refine ⟨rfl, rfl, ?_, by decide⟩
  intro it h
  cases it
  · cases h
  · cases h
  · rfl

theorem witness_ReadOnlyOperationsAreIdempotent : ∀ it, mayWrite .crcRead it = false := by
  intro it
  cases it <;> rfl

theorem witness_LegalStateIsInvariant :
    ((mk Config.spec [1, 2, 3] 0).presentNext (.op 0x01)).legal = true
    ∧ (nextOf (step ((mk Config.spec [1, 2, 3] 0).presentNext (.op 0x01)))).isSome = true := by decide +kernel

/-- Both ends of the register. -/
theorem witness_CrcFinalReflectsThenXors : 0 < 16 ∧ 15 < 16 := by decide

/-- The last magnitude that still builds a word, and the first that builds none. -/
theorem witness_DecimalLiteralIsNearestBinary32 :
    |(1 : ℚ) * ((2 ^ 25 - 1) * 2 ^ 103 - 1 : Nat) * (10 : ℚ) ^ (0 : Int)| < (2 ^ 25 - 1) * 2 ^ 103
    ∧ (2 ^ 25 - 1) * 2 ^ 103 ≤ |(-1 : ℚ) * ((2 ^ 25 - 1) * 2 ^ 103 : Nat) * (10 : ℚ) ^ (0 : Int)| := by
  constructor <;> norm_num

/-- Two states with one byte received that differ in the bytes not yet received. -/
theorem witness_StaleBufferBytesAreUnobservable :
    SameVisible (mk Config.spec [1] 0) { mk Config.spec [1] 0 with rxbuf := #v[1, 2, 3, 4] } := by
  refine ⟨rfl, rfl, rfl, rfl, rfl, ?_⟩
  intro i hi
  have h0 : i = 0 := by
    have h1 : (mk Config.spec [1] 0).rxcnt.toNat = 1 := rfl
    omega
  subst h0
  decide

end Sys2Proof.Tests
end

section
/-! PROOFS. The access table of 10_state.md R32: what each operation leaves alone, and what its result depends on. -/

namespace Sys2Proof.Machine

/-! ### The effect of each operation as one update of the state -/

/-- FRAME_OK and FRAME_CRC_ERR as one response, of the parameters and the frame alone (R121). -/
theorem State.reportFrame_eq_respond (s : State) (frame : List Byte) :
    s.reportFrame frame = s.respond
      (if (validate s.config frame).ok then .frameOk else .frameCrcErr)
      ((validate s.config frame).computed ++ (if (validate s.config frame).ok then (validate s.config frame).opcode else 0))
      frame := by
  obtain ⟨hok, h⟩ | ⟨hok, h⟩ := s.reportFrame_cases frame <;> simp [h, hok]

/-- RX_BYTE below COMMAND_LEN (R121). -/
theorem exec_rxByte_append {b : Byte} {s : State} (h : s.rxcnt.toNat + 1 < s.commandLen) :
    exec (.rxByte b) s = .next (((s.writeRxbuf s.rxcnt.toNat b).setRxcnt (s.rxcnt.toNat + 1)).respond .pending
      (BitVec.ofNat 32 (s.rxcnt.toNat + 1))) := by
  obtain ⟨-, e⟩ | ⟨hge, -⟩ := execRxByte_cases b s
  · exact e
  · omega

/-- RX_BYTE that completes the frame (R121). -/
theorem exec_rxByte_complete {b : Byte} {s : State} (h : s.commandLen ≤ s.rxcnt.toNat + 1) :
    exec (.rxByte b) s
      = .next (((s.writeRxbuf s.rxcnt.toNat b).setRxcnt 0).reportFrame (s.writeRxbuf s.rxcnt.toNat b).frame) := by
  obtain ⟨hlt, -⟩ | ⟨-, e⟩ := execRxByte_cases b s
  · omega
  · exact e

/-- RX_RESET from any count: R is the count, which is 0 when the answer is OK (R122). -/
theorem exec_rxReset (s : State) :
    exec .rxReset s
      = .next ((s.setRxcnt 0).respond (if s.rxcnt = 0 then .ok else .flushPartial) (s.rxcnt.setWidth 32)) := by
  obtain ⟨h, e⟩ | ⟨h, e⟩ := execRxReset_cases s
  · exact e.trans (by simp [h])
  · exact e.trans (by rw [if_neg h])

theorem exec_crcInit (s : State) : exec .crcInit s = .next ((s.setCrcAcc s.config.crc.init).respond .ok) := rfl

theorem exec_crcFeed (b : Byte) (s : State) :
    exec (.crcFeed b) s = .next ((s.setCrcAcc (crcStep s.config.crc s.crcAcc b)).respond .ok) := rfl

theorem exec_crcRead (s : State) :
    exec .crcRead s = .next (s.respond .ok (zext32 16 (crcFinal s.config.crc s.crcAcc))) := rfl

theorem exec_crcCheck (d : Half) (s : State) :
    exec (.crcCheck d) s = .next (s.respond (if crcFinal s.config.crc s.crcAcc = d then .ok else .crcMismatch)
      ((crcFinal s.config.crc s.crcAcc).setWidth 32)) := execCrcCheck_eq d s

theorem exec_fxEnc (f : Word32) (s : State) :
    exec (.fxEnc f) s = .next (s.respond (fxEncode s.config.roundTies s.config.ovfMode f).1
      ((fxEncode s.config.roundTies s.config.ovfMode f).2.setWidth 32)) := execFxEnc_eq f s

theorem exec_fxDec (x : Byte) (s : State) : exec (.fxDec x) s = .next (s.respond .ok (fxDecode x)) := rfl

theorem exec_cmdEnc (o : Half) (s : State) :
    exec (.cmdEnc o) s = .next (s.reportBuilt (cmdFrame s.config o)) := rfl

theorem exec_tlmEnc (status : Half) (voltage : Byte) (current : Half) (speed magX magY magZ gyroX gyroY gyroZ : Byte)
    (s : State) :
    exec (.tlmEnc status voltage current speed magX magY magZ gyroX gyroY gyroZ) s
      = .next (s.reportBuilt
          (withCrc s.config.crc (tlmBody status voltage current speed magX magY magZ gyroX gyroY gyroZ))) := rfl

/-! ### What an operation leaves alone -/

/-- A response changes nothing of the block. -/
theorem State.respond_sameBlock (s : State) (st : Status) (r : Word32) (out : List Byte) :
    SameBlock s (s.respond st r out) :=
  ⟨⟨rfl, rfl⟩, ⟨rfl, rfl⟩, rfl⟩

theorem SameBlock.agreeOn {s t : State} (h : SameBlock s t) (it : Item) : AgreeOn it s t := by
  obtain ⟨-, ⟨hbuf, hcnt⟩, hcrc⟩ := h
  cases it with
  | rxbuf => exact hbuf.symm
  | rxcnt => exact hcnt.symm
  | crcAcc => exact hcrc.symm

/-- RX_BYTE touches neither the surroundings nor the CRC engine. -/
theorem exec_rxByte_frame (b : Byte) (s : State) :
    ∃ t, exec (.rxByte b) s = .next t ∧ SameSurroundings s t ∧ SameCrc s t := by
  obtain h | h := lt_or_ge (s.rxcnt.toNat + 1) s.commandLen
  · exact ⟨_, exec_rxByte_append h, ⟨rfl, rfl⟩, rfl⟩
  · refine ⟨_, exec_rxByte_complete h, ?_⟩
    rw [State.reportFrame_eq_respond]
    exact ⟨⟨rfl, rfl⟩, rfl⟩

theorem agreeOn_refl (it : Item) (s : State) : AgreeOn it s s := by cases it <;> rfl

/-- An operation without a `w` in the table of R32 does nothing but answer (R43), and answers alike in two states with the
same parameters and the same values of the items it reads. -/
theorem exec_respond_alike_of_readOnly {i : Instr} {s₁ s₂ : State} (hw : ∀ it, mayWrite i it = false)
    (hcfg : s₁.config = s₂.config) (hread : ∀ it, mayRead i it = true → AgreeOn it s₁ s₂) :
    ∃ st r out, exec i s₁ = .next (s₁.respond st r out) ∧ exec i s₂ = .next (s₂.respond st r out) := by
  cases i with
  | rxByte b => cases hw .rxcnt
  | rxReset => cases hw .rxcnt
  | crcInit => cases hw .crcAcc
  | crcFeed b => cases hw .crcAcc
  | crcRead =>
    have hacc : s₁.crcAcc = s₂.crcAcc := hread .crcAcc rfl
    exact ⟨_, _, _, exec_crcRead s₁, by rw [exec_crcRead, hcfg, hacc]⟩
  | crcCheck d =>
    have hacc : s₁.crcAcc = s₂.crcAcc := hread .crcAcc rfl
    exact ⟨_, _, _, exec_crcCheck d s₁, by rw [exec_crcCheck, hcfg, hacc]⟩
  | fxEnc f => exact ⟨_, _, _, exec_fxEnc f s₁, by rw [exec_fxEnc, hcfg]⟩
  | fxDec x => exact ⟨_, _, _, exec_fxDec x s₁, exec_fxDec x s₂⟩
  | cmdEnc o => exact ⟨_, _, _, exec_cmdEnc o s₁, by rw [exec_cmdEnc, hcfg, State.reportBuilt]⟩
  | tlmEnc => exact ⟨_, _, _, exec_tlmEnc .., by rw [exec_tlmEnc, hcfg, State.reportBuilt]⟩

/-- The case of one state: an operation without a `w` does nothing but answer. -/
theorem exec_eq_respond_of_readOnly {i : Instr} (hw : ∀ it, mayWrite i it = false) (s : State) :
    ∃ st r out, exec i s = .next (s.respond st r out) := by
  obtain ⟨st, r, out, e, -⟩ := exec_respond_alike_of_readOnly hw (Eq.refl s.config) fun it _ => agreeOn_refl it s
  exact ⟨st, r, out, e⟩

/-- Four operations have a `w` in the table of R32, and no other has one. -/
theorem mayWrite_cases (i : Instr) :
    (∃ b, i = .rxByte b) ∨ i = .rxReset ∨ i = .crcInit ∨ (∃ b, i = .crcFeed b) ∨ ∀ it, mayWrite i it = false := by
  cases i <;> simp [mayWrite]

/-- The `w` entries of R32: an item without one is unchanged, as are the parameters and the inputs. -/
theorem exec_keeps_unwritten (i : Instr) (s : State) :
    ∃ t, exec i s = .next t ∧ SameSurroundings s t ∧ ∀ it, mayWrite i it = false → AgreeOn it s t := by
  obtain ⟨b, rfl⟩ | rfl | rfl | ⟨b, rfl⟩ | hw := mayWrite_cases i
  · obtain ⟨t, e, hsur, hcrc⟩ := exec_rxByte_frame b s
    refine ⟨t, e, hsur, fun it h => ?_⟩
    cases it with
    | rxbuf => cases h
    | rxcnt => cases h
    | crcAcc => exact hcrc.symm
  · refine ⟨_, exec_rxReset s, ⟨rfl, rfl⟩, fun it h => ?_⟩
    cases it with
    | rxbuf => rfl
    | rxcnt => cases h
    | crcAcc => rfl
  · refine ⟨_, exec_crcInit s, ⟨rfl, rfl⟩, fun it h => ?_⟩
    cases it with
    | rxbuf => rfl
    | rxcnt => rfl
    | crcAcc => cases h
  · refine ⟨_, exec_crcFeed b s, ⟨rfl, rfl⟩, fun it h => ?_⟩
    cases it with
    | rxbuf => rfl
    | rxcnt => rfl
    | crcAcc => cases h
  · obtain ⟨st, r, out, e⟩ := exec_eq_respond_of_readOnly hw s
    have hsame := s.respond_sameBlock st r out
    exact ⟨_, e, hsame.1, fun it _ => hsame.agreeOn it⟩

/-! ### What an operation depends on -/

theorem State.commandLen_congr {s t : State} (h : s.config = t.config) : s.commandLen = t.commandLen := by
  rw [State.commandLen, State.commandLen, h]

/-- The frame is read from the parameters and RXBUF alone. -/
theorem State.frame_congr {s t : State} (hcfg : s.config = t.config) (hbuf : s.rxbuf = t.rxbuf) : s.frame = t.frame := by
  have hread : s.readRxbuf = t.readRxbuf := by
    funext i
    rw [State.readRxbuf, State.readRxbuf, hbuf]
  rw [State.frame, State.frame, State.commandLen_congr hcfg, hread]

/-- The report of a frame depends on the parameters and the frame alone. -/
theorem State.reportFrame_response_congr {s t : State} (hcfg : s.config = t.config) (frame : List Byte) :
    (s.reportFrame frame).response = (t.reportFrame frame).response := by
  rw [State.reportFrame_eq_respond, State.reportFrame_eq_respond, hcfg, State.respond_response, State.respond_response]

/-- RX_BYTE depends on the parameters and the framer alone. -/
theorem exec_rxByte_congr (b : Byte) {s₁ s₂ : State} (hcfg : s₁.config = s₂.config) (hbuf : s₁.rxbuf = s₂.rxbuf)
    (hcnt : s₁.rxcnt = s₂.rxcnt) :
    ∃ t₁ t₂, exec (.rxByte b) s₁ = .next t₁ ∧ exec (.rxByte b) s₂ = .next t₂ ∧ t₁.response = t₂.response
      ∧ SameFramer t₁ t₂ := by
  have hlen := State.commandLen_congr hcfg
  obtain h | h := lt_or_ge (s₁.rxcnt.toNat + 1) s₁.commandLen
  · refine ⟨_, _, exec_rxByte_append h, exec_rxByte_append (by rwa [← hcnt, ← hlen]), ?_⟩
    simp [SameFramer, hbuf, hcnt]
  · have hframe : (s₁.writeRxbuf s₁.rxcnt.toNat b).frame = (s₂.writeRxbuf s₂.rxcnt.toNat b).frame :=
      State.frame_congr hcfg (by simp [hbuf, hcnt])
    refine ⟨_, _, exec_rxByte_complete h, exec_rxByte_complete (by rwa [← hcnt, ← hlen]), ?_⟩
    rw [hframe]
    exact ⟨State.reportFrame_response_congr (by simpa using hcfg) _,
      by simp [SameFramer, State.reportFrame_eq_respond, hbuf, hcnt]⟩

/-- The `r` entries of R32: the response and the items written depend on nothing else but the parameters. -/
theorem exec_depends_on_read (i : Instr) {s₁ s₂ : State} (hcfg : s₁.config = s₂.config)
    (hread : ∀ it, mayRead i it = true → AgreeOn it s₁ s₂) :
    ∃ t₁ t₂, exec i s₁ = .next t₁ ∧ exec i s₂ = .next t₂ ∧ t₁.response = t₂.response
      ∧ ∀ it, mayWrite i it = true → AgreeOn it t₁ t₂ := by
  obtain ⟨b, rfl⟩ | rfl | rfl | ⟨b, rfl⟩ | hw := mayWrite_cases i
  · obtain ⟨t₁, t₂, e₁, e₂, hresp, hbuf, hcnt⟩ := exec_rxByte_congr b hcfg (hread .rxbuf rfl) (hread .rxcnt rfl)
    refine ⟨t₁, t₂, e₁, e₂, hresp, fun it h => ?_⟩
    cases it with
    | rxbuf => exact hbuf.symm
    | rxcnt => exact hcnt.symm
    | crcAcc => cases h
  · have hcnt : s₁.rxcnt = s₂.rxcnt := hread .rxcnt rfl
    refine ⟨_, _, exec_rxReset s₁, exec_rxReset s₂, by simp [hcnt], fun it h => ?_⟩
    cases it with
    | rxbuf => cases h
    | rxcnt => rfl
    | crcAcc => cases h
  · refine ⟨_, _, exec_crcInit s₁, exec_crcInit s₂, rfl, fun it h => ?_⟩
    cases it with
    | rxbuf => cases h
    | rxcnt => cases h
    | crcAcc => exact congrArg (fun c : Config => c.crc.init) hcfg
  · have hacc : s₁.crcAcc = s₂.crcAcc := hread .crcAcc rfl
    refine ⟨_, _, exec_crcFeed b s₁, exec_crcFeed b s₂, rfl, fun it h => ?_⟩
    cases it with
    | rxbuf => cases h
    | rxcnt => cases h
    | crcAcc => simp [AgreeOn, hcfg, hacc]
  · obtain ⟨st, r, out, e₁, e₂⟩ := exec_respond_alike_of_readOnly hw hcfg hread
    exact ⟨_, _, e₁, e₂, rfl, fun it h => absurd h (by simp [hw it])⟩

/-- Settles O41: the frame of each operation, the inputs it depends on, and the row of a reserved OP, which answers
ILLEGAL_OP from every state. -/
theorem accessTableHolds : Obligations.AccessTableHolds := by
  refine ⟨exec_keeps_unwritten, fun i s₁ s₂ => exec_depends_on_read i, fun w op s₁ s₂ h => ?_⟩
  exact ⟨_, _, perform_reserved s₁ h, perform_reserved s₂ h, s₁.respond_sameBlock _ _ _, rfl⟩

end Sys2Proof.Machine
end

section
/-! PROOFS. The operation word of 30_encoding.md: its four fields (R50), the selection of an operation by OP alone (R52), and
what a reserved OP does (R57). -/

namespace Sys2Proof

/-! ### The fields as numbers -/

theorem opField_toNat (w : OpWord) : (opField w).toNat = w.toNat % 2 ^ 8 := by
  rw [opField, BitVec.extractLsb'_toNat, Nat.shiftRight_zero]

theorem aField_toNat (w : OpWord) : (aField w).toNat = w.toNat / 2 ^ 8 % 2 ^ 32 := by
  rw [aField, BitVec.extractLsb'_toNat, Nat.shiftRight_eq_div_pow]

theorem bField_toNat (w : OpWord) : (bField w).toNat = w.toNat / 2 ^ 40 % 2 ^ 16 := by
  rw [bField, BitVec.extractLsb'_toNat, Nat.shiftRight_eq_div_pow]

theorem cField_toNat (w : OpWord) : (cField w).toNat = w.toNat / 2 ^ 56 % 2 ^ 48 := by
  rw [cField, BitVec.extractLsb'_toNat, Nat.shiftRight_eq_div_pow]

/-- Each field of a word weighs the power of two of its lowest bit (R50). -/
theorem opWord_toNat (op : Byte) (a : Word32) (b : Half) (c : Word48) :
    (opWord op a b c).toNat = ((c.toNat * 2 ^ 16 + b.toNat) * 2 ^ 32 + a.toNat) * 2 ^ 8 + op.toNat := by
  rw [opWord, BitVec.toNat_append, BitVec.toNat_append, BitVec.toNat_append, ← Nat.shiftLeft_add_eq_or_of_lt op.isLt,
    ← Nat.shiftLeft_add_eq_or_of_lt a.isLt, ← Nat.shiftLeft_add_eq_or_of_lt b.isLt]
  simp only [Nat.shiftLeft_eq]

/-! ### The word is exactly its fields -/

theorem opWord_fields (w : OpWord) : opWord (opField w) (aField w) (bField w) (cField w) = w := by
  apply BitVec.eq_of_toNat_eq
  rw [opWord_toNat, opField_toNat, aField_toNat, bField_toNat, cField_toNat]
  have hw : w.toNat < 2 ^ 104 := w.isLt
  omega

theorem aField_opWord (op : Byte) (a : Word32) (b : Half) (c : Word48) : aField (opWord op a b c) = a := by
  apply BitVec.eq_of_toNat_eq
  rw [aField_toNat, opWord_toNat]
  omega

theorem bField_opWord (op : Byte) (a : Word32) (b : Half) (c : Word48) : bField (opWord op a b c) = b := by
  apply BitVec.eq_of_toNat_eq
  rw [bField_toNat, opWord_toNat]
  omega

theorem cField_opWord (op : Byte) (a : Word32) (b : Half) (c : Word48) : cField (opWord op a b c) = c := by
  apply BitVec.eq_of_toNat_eq
  rw [cField_toNat, opWord_toNat]
  omega

/-- Settles O1: the bits of each field, and the two directions between a word and its fields. -/
theorem operationWordHasFourFields : Obligations.OperationWordHasFourFields := by
  refine ⟨fun w => ?_, fun op a b c => ?_⟩
  · exact ⟨opField_toNat w, aField_toNat w, bField_toNat w, cField_toNat w, opWord_fields w⟩
  · exact ⟨Laws.EncodeOp.opField_opWord op a b c, aField_opWord op a b c, bField_opWord op a b c, cField_opWord op a b c⟩

/-! ### Selection by OP -/

/-- The ten OP values of R56; `Instr.op_mem_opCodes` and `decode_cases` tie them to the operations and the decoder. -/
def opCodes : List Byte := [0x01, 0x02, 0x10, 0x11, 0x12, 0x13, 0x20, 0x21, 0x30, 0x31]

theorem Instr.op_mem_opCodes (i : Instr) : i.op ∈ opCodes := by
  cases i <;> simp [Instr.op, opCodes]

/-- All the decoder can answer: an operation with the word's OP value, or that value as reserved when R56 does not list it. -/
theorem decode_cases (w : OpWord) :
    (∃ i, decode w = .instr i ∧ i.op = opField w) ∨ (opField w ∉ opCodes ∧ decode w = .reserved (opField w)) := by
  unfold decode
  split
  case h_11 => exact .inr ⟨by simp_all [opCodes], rfl⟩
  all_goals exact .inl ⟨_, rfl, Eq.symm ‹_›⟩

theorem decode_instr_of_mem {w : OpWord} (h : opField w ∈ opCodes) : ∃ i, decode w = .instr i ∧ i.op = opField w := by
  obtain hi | ⟨hnot, -⟩ := decode_cases w
  · exact hi
  · exact absurd h hnot

/-- A word whose OP no operation has is reserved. -/
theorem decode_reserved_of_no_op {w : OpWord} (h : ∀ i : Instr, i.op ≠ opField w) : decode w = .reserved (opField w) := by
  obtain ⟨i, -, hop⟩ | ⟨-, hdec⟩ := decode_cases w
  · exact absurd hop (h i)
  · exact hdec

theorem decode_reserved_of_not_mem {w : OpWord} (h : opField w ∉ opCodes) : decode w = .reserved (opField w) :=
  decode_reserved_of_no_op fun i hop => h (hop ▸ i.op_mem_opCodes)

/-- Settles O3: the two outcomes of `decode_cases` exclude each other by whether OP is listed. -/
theorem opFieldAloneSelectsOperation : Obligations.OpFieldAloneSelectsOperation :=
  fun _ => ⟨decode_instr_of_mem, decode_reserved_of_not_mem⟩

/-! ### A reserved OP -/

/-- The five ranges of reserved values that R57 spells out. -/
def InReservedRange (op : Nat) : Prop :=
  op = 0x00 ∨ (0x03 ≤ op ∧ op ≤ 0x0F) ∨ (0x14 ≤ op ∧ op ≤ 0x1F) ∨ (0x22 ≤ op ∧ op ≤ 0x2F) ∨ (0x32 ≤ op ∧ op ≤ 0xFF)

/-- No operation has its OP value in a range of R57. -/
theorem Instr.op_not_inReservedRange (i : Instr) : ¬ InReservedRange i.op.toNat := by
  cases i <;> simp [Instr.op, InReservedRange]

theorem decode_reserved_of_inReservedRange {w : OpWord} (h : InReservedRange (opField w).toNat) :
    decode w = .reserved (opField w) :=
  decode_reserved_of_no_op fun i hop => i.op_not_inReservedRange (hop ▸ h)

end Sys2Proof

namespace Sys2Proof.Machine

/-- A step with an operation word at the head of the port performs it on the state without that word. -/
theorem step_op {s : State} {w : OpWord} {rest : List Input} (h : s.inputs = .op w :: rest) :
    step s = perform w { s with inputs := rest } := by
  rw [step, State.accept_cons h]

/-- Settles O6: the word decodes to reserved, so the step does nothing but report ILLEGAL_OP. -/
theorem reservedOpAnswersIllegalOp : Obligations.ReservedOpAnswersIllegalOp := by
  intro s w rest hin hop
  have hstep : step s = .next { s with inputs := rest }.reportIllegalOp :=
    (step_op hin).trans (perform_reserved _ (decode_reserved_of_inReservedRange hop))
  exact ⟨_, hstep, rfl, rfl, ⟨rfl, rfl⟩, rfl, State.respond_answers _ .illegalOp 0 [] (Nat.zero_le _)⟩

end Sys2Proof.Machine
end

section
/-! PROOFS. The CRC-16 engine of 40_crc.md: the output transform (R81), crc16 as a register taken over the bytes (R82), and
the four operations with their encodings (R84 to R87). -/

namespace Sys2Proof

/-! ### The words of the CRC operations

OP selects the arm of the decoder; the operand of CRC_FEED is A[7:0], that of CRC_CHECK is B. -/

theorem decode_opWord_crcInit (a : Word32) (b : Half) (c : Word48) : decode (opWord 0x10 a b c) = .instr .crcInit := by
  simp only [decode, Laws.EncodeOp.opField_opWord, BitVec.ofNat_eq_ofNat]

theorem decode_opWord_crcFeed (a : Word32) (b : Half) (c : Word48) :
    decode (opWord 0x11 a b c) = .instr (.crcFeed (a.extractLsb' 0 8)) := by
  simp only [decode, Laws.EncodeOp.opField_opWord, BitVec.ofNat_eq_ofNat, aField_opWord]

theorem decode_opWord_crcRead (a : Word32) (b : Half) (c : Word48) : decode (opWord 0x12 a b c) = .instr .crcRead := by
  simp only [decode, Laws.EncodeOp.opField_opWord, BitVec.ofNat_eq_ofNat]

theorem decode_opWord_crcCheck (a : Word32) (b : Half) (c : Word48) :
    decode (opWord 0x13 a b c) = .instr (.crcCheck b) := by
  simp only [decode, Laws.EncodeOp.opField_opWord, BitVec.ofNat_eq_ofNat, bField_opWord]

end Sys2Proof

namespace Sys2Proof.Machine

/-! ### The output transform -/

theorem reflect_getLsbD {n i : Nat} (v : BitVec n) (h : i < n) : (reflect n v).getLsbD i = v.getLsbD (n - 1 - i) := by
  rw [reflect, BitVec.getLsbD_reverse, BitVec.getMsbD, decide_eq_true h, Bool.true_and]

theorem crcFinal_reflected {p : CrcParams} (h : p.refout = true) (acc : Half) :
    crcFinal p acc = reflect 16 acc ^^^ p.xorout := by
  rw [crcFinal, if_pos h]

theorem crcFinal_unreflected {p : CrcParams} (h : p.refout ≠ true) (acc : Half) : crcFinal p acc = acc ^^^ p.xorout := by
  rw [crcFinal, if_neg h]

/-- Each bit of CrcFinal (R81). -/
theorem crcFinal_getLsbD (p : CrcParams) (acc : Half) {i : Nat} (hi : i < 16) :
    (crcFinal p acc).getLsbD i
      = ((if p.refout = true then acc.getLsbD (15 - i) else acc.getLsbD i) ^^ p.xorout.getLsbD i) := by
  by_cases h : p.refout = true
  · rw [crcFinal_reflected h, BitVec.getLsbD_xor, reflect_getLsbD acc hi, if_pos h]
  · rw [crcFinal_unreflected h, BitVec.getLsbD_xor, if_neg h]

/-- Without reflection and with CRC_XOROUT = 0, the CRC is the register. -/
theorem crcFinal_eq_self {p : CrcParams} (hout : p.refout ≠ true) (hxor : p.xorout = 0) (acc : Half) :
    crcFinal p acc = acc := by
  rw [crcFinal_unreflected hout, hxor]
  exact BitVec.xor_zero

/-- Settles O53: the bits of CrcFinal, and the parameters of the spec, which neither reflect nor XOR. -/
theorem crcFinalReflectsThenXors : Obligations.CrcFinalReflectsThenXors :=
  ⟨fun p acc _ hi => crcFinal_getLsbD p acc hi, crcFinal_eq_self Bool.false_ne_true rfl⟩

/-! ### The register over a byte sequence -/

/-- The register after the bytes `bs`, fed in order from CRC_INIT; `crc16_eq_crcFinal_crcRegister` ties it to `crc16`. -/
def crcRegister (p : CrcParams) (bs : List Byte) : Half := bs.foldl (crcStep p) p.init

@[simp] theorem crcRegister_nil (p : CrcParams) : crcRegister p [] = p.init := rfl

@[simp] theorem crcRegister_concat (p : CrcParams) (bs : List Byte) (b : Byte) :
    crcRegister p (bs ++ [b]) = crcStep p (crcRegister p bs) b :=
  List.foldl_concat (crcStep p) p.init b bs

theorem crc16_eq_crcFinal_crcRegister (p : CrcParams) (bs : List Byte) : crc16 p bs = crcFinal p (crcRegister p bs) := rfl

theorem crc16_nil (p : CrcParams) : crc16 p [] = crcFinal p p.init := by
  rw [crc16_eq_crcFinal_crcRegister, crcRegister_nil]

/-- Settles O18: the register function is `crcRegister`. -/
theorem crc16FoldsCrcStep : Obligations.Crc16FoldsCrcStep := by
  intro p
  have hempty : crc16 CrcParams.ibm3740 [] = 0xFFFF := by
    rw [crc16_nil, crcFinal_eq_self Bool.false_ne_true rfl]
    rfl
  exact ⟨crc16_nil p, hempty, crcRegister p, crcRegister_nil p, crcRegister_concat p, crc16_eq_crcFinal_crcRegister p⟩

/-! ### The four operations -/

/-- An operation that writes v to CRC_ACC and answers OK leaves the framer and the surroundings alone (R84, R85). -/
theorem State.setCrcAcc_respond_frame (s : State) (v : Half) :
    SameFramer s ((s.setCrcAcc v).respond .ok) ∧ SameSurroundings s ((s.setCrcAcc v).respond .ok) :=
  ⟨⟨rfl, rfl⟩, ⟨rfl, rfl⟩⟩

/-- An answer without output bytes. -/
theorem State.respond_answers_nil (s : State) (st : Status) (r : Word32) : (s.respond st r).Answers st.code r [] :=
  s.respond_answers st r [] (Nat.zero_le _)

/-- Settles O14: CRC_ACC is written with CRC_INIT. -/
theorem crcInitStartsNewCrc : Obligations.CrcInitStartsNewCrc := by
  intro s a b c
  obtain ⟨hframer, hsur⟩ := s.setCrcAcc_respond_frame s.config.crc.init
  exact ⟨decode_opWord_crcInit a b c, _, exec_crcInit s, rfl, hframer, hsur, State.respond_answers_nil _ .ok 0⟩

/-- Settles O15: CRC_ACC is written with one CrcStep of itself. -/
theorem crcFeedAdvancesRegister : Obligations.CrcFeedAdvancesRegister := by
  intro s a b c
  obtain ⟨hframer, hsur⟩ := s.setCrcAcc_respond_frame (crcStep s.config.crc s.crcAcc (a.extractLsb' 0 8))
  exact ⟨decode_opWord_crcFeed a b c, _, exec_crcFeed _ s, rfl, hframer, hsur, State.respond_answers_nil _ .ok 0⟩

/-- Settles O16: the one answer is CrcFinal of the register, which is crc16 once the register is that of the bytes. -/
theorem crcReadReturnsCrc : Obligations.CrcReadReturnsCrc := by
  intro s a b c
  have hanswer := s.respond_answers_nil .ok ((crcFinal s.config.crc s.crcAcc).setWidth 32)
  refine ⟨decode_opWord_crcRead a b c, _, exec_crcRead s, s.respond_sameBlock .ok _ [], hanswer, fun bs hreg => ?_⟩
  have hcrc : crc16 s.config.crc bs = crcFinal s.config.crc s.crcAcc := by
    rw [crc16_eq_crcFinal_crcRegister, crcRegister, ← hreg]
  rw [hcrc]
  exact hanswer

theorem exec_crcCheck_match {d : Half} {s : State} (h : crcFinal s.config.crc s.crcAcc = d) :
    exec (.crcCheck d) s = .next (s.respond .ok (d.setWidth 32)) := by
  rw [exec_crcCheck, if_pos h, h]

theorem exec_crcCheck_mismatch {d : Half} {s : State} (h : crcFinal s.config.crc s.crcAcc ≠ d) :
    exec (.crcCheck d) s = .next (s.respond .crcMismatch ((crcFinal s.config.crc s.crcAcc).setWidth 32)) := by
  rw [exec_crcCheck, if_neg h]

/-- Settles O17: the declared CRC matches or it does not, and either way the operation only answers. -/
theorem crcCheckComparesDeclaredCrc : Obligations.CrcCheckComparesDeclaredCrc := by
  intro s a b c
  refine ⟨decode_opWord_crcCheck a b c, ?_⟩
  by_cases h : crcFinal s.config.crc s.crcAcc = b
  · exact ⟨_, exec_crcCheck_match h, s.respond_sameBlock .ok _ [], fun _ => s.respond_answers_nil .ok _,
      fun hne => absurd h hne⟩
  · exact ⟨_, exec_crcCheck_mismatch h, s.respond_sameBlock .crcMismatch _ [], fun heq => absurd heq h,
      fun _ => s.respond_answers_nil .crcMismatch _⟩

end Sys2Proof.Machine
end

section
/-! PROOFS. FX_ENC and FX_DEC of 41_fixed_point.md: binary32 as an exact rational (R100), the rounding of a quotient (R101),
the range of a byte (R104, R105), and the normal number of a byte (R107, R108). -/

namespace Sys2Proof

/-! ### The words of the fixed-point operations -/

theorem decode_opWord_fxEnc (a : Word32) (b : Half) (c : Word48) : decode (opWord 0x20 a b c) = .instr (.fxEnc a) := by
  simp only [decode, Laws.EncodeOp.opField_opWord, BitVec.ofNat_eq_ofNat, aField_opWord]

theorem decode_opWord_fxDec (a : Word32) (b : Half) (c : Word48) :
    decode (opWord 0x21 a b c) = .instr (.fxDec (a.extractLsb' 0 8)) := by
  simp only [decode, Laws.EncodeOp.opField_opWord, BitVec.ofNat_eq_ofNat, aField_opWord]

end Sys2Proof

namespace Sys2Proof.Machine

/-! ### The fields of a binary32 as numbers (R11) -/

theorem f32Exp_eq (a : Word32) : f32Exp a = a.toNat / 2 ^ 23 % 2 ^ 8 := by
  rw [f32Exp, BitVec.extractLsb'_toNat, Nat.shiftRight_eq_div_pow]

theorem f32Frac_eq (a : Word32) : f32Frac a = a.toNat % 2 ^ 23 := by
  rw [f32Frac, BitVec.extractLsb'_toNat, Nat.shiftRight_zero]

theorem f32Sign_toNat (a : Word32) : (f32Sign a).toNat = a.toNat / 2 ^ 31 := by
  rw [f32Sign, BitVec.getLsbD, Nat.toNat_testBit]
  have ha : a.toNat < 2 ^ 32 := a.isLt
  omega

/-- A binary32 as the sum of its fields. -/
theorem f32_toNat_eq (a : Word32) : a.toNat = (f32Sign a).toNat * 2 ^ 31 + f32Exp a * 2 ^ 23 + f32Frac a := by
  rw [f32Sign_toNat, f32Exp_eq, f32Frac_eq]
  omega

/-- A binary32 is exactly its three fields. -/
theorem f32_eq_of_fields {a b : Word32} (hs : f32Sign a = f32Sign b) (he : f32Exp a = f32Exp b)
    (hf : f32Frac a = f32Frac b) : a = b := by
  apply BitVec.eq_of_toNat_eq
  rw [f32_toNat_eq a, f32_toNat_eq b, hs, he, hf]

/-- The word with given fields weighs each by the power of two of its lowest bit. -/
theorem f32Word_toNat (neg : Bool) (e : BitVec 8) (f : BitVec 23) :
    (BitVec.ofBool neg ++ e ++ f).toNat = neg.toNat * 2 ^ 31 + e.toNat * 2 ^ 23 + f.toNat := by
  rw [BitVec.toNat_append, BitVec.toNat_append, BitVec.toNat_ofBool, ← Nat.shiftLeft_add_eq_or_of_lt f.isLt,
    ← Nat.shiftLeft_add_eq_or_of_lt e.isLt]
  simp only [Nat.shiftLeft_eq]
  ring

theorem f32Sign_word (neg : Bool) (e : BitVec 8) (f : BitVec 23) : f32Sign (BitVec.ofBool neg ++ e ++ f) = neg := by
  rw [f32Sign, BitVec.getLsbD_append, BitVec.getLsbD_append]
  simp

theorem f32Exp_word (neg : Bool) (e : BitVec 8) (f : BitVec 23) : f32Exp (BitVec.ofBool neg ++ e ++ f) = e.toNat := by
  rw [f32Exp_eq, f32Word_toNat]
  omega

theorem f32Frac_word (neg : Bool) (e : BitVec 8) (f : BitVec 23) : f32Frac (BitVec.ofBool neg ++ e ++ f) = f.toNat := by
  rw [f32Frac_eq, f32Word_toNat]
  omega

/-! ### The value of a binary32 (R100) -/

/-- `real(a)` in terms of the fields. -/
theorem f32Real_eq (a : Word32) :
    f32Real a = if f32Exp a = 255 then none
      else if f32Exp a = 0 then some ((-1) ^ (f32Sign a).toNat * f32Frac a * (2 : ℚ) ^ (-149 : ℤ))
      else some ((-1) ^ (f32Sign a).toNat * (2 ^ 23 + f32Frac a) * (2 : ℚ) ^ ((f32Exp a : ℤ) - 150)) := by
  rw [f32Real, f32Sign_toNat, f32Exp_eq, f32Frac_eq]

/-- A binary32 whose exponent field is neither 0 nor 255 is a normal number. -/
theorem f32Real_of_normal {a : Word32} (h0 : f32Exp a ≠ 0) (h255 : f32Exp a ≠ 255) :
    f32Real a = some ((-1) ^ (f32Sign a).toNat * (2 ^ 23 + f32Frac a) * (2 : ℚ) ^ ((f32Exp a : ℤ) - 150)) := by
  rw [f32Real_eq, if_neg h255, if_neg h0]

/-- The magnitude held by the machine is `|real(a)| * 2^149`. -/
theorem f32Real_eq_magnitude {a : Word32} (h : f32Exp a ≠ 255) :
    f32Real a = some ((-1) ^ (f32Sign a).toNat * (f32Magnitude a : ℚ) / 2 ^ 149) := by
  rw [f32Real_eq, if_neg h, f32Magnitude]
  by_cases he : f32Exp a = 0
  · rw [if_pos he, if_pos he, zpow_neg, zpow_ofNat, div_eq_mul_inv]
  · obtain ⟨k, hk⟩ := Nat.exists_eq_succ_of_ne_zero he
    have hpow : (2 : ℚ) ^ (((k + 1 : ℕ) : ℤ) - 150) = 2 ^ k / 2 ^ 149 := by
      rw [← zpow_natCast, ← zpow_natCast, ← zpow_sub₀ two_ne_zero]
      congr 1
      omega
    rw [if_neg he, if_neg he, hk, Nat.succ_eq_add_one, hpow, Nat.add_sub_cancel]
    push_cast
    ring_nf

theorem f32Value_of_exp_ne {a : Word32} (h : f32Exp a ≠ 255) :
    f32Value a = .finite ((-1) ^ (f32Sign a).toNat * f32Magnitude a) := by
  rw [f32Value, if_neg h]
  cases f32Sign a <;> simp

theorem f32IsNan_iff (a : Word32) : f32IsNan a = true ↔ f32Exp a = 255 ∧ f32Frac a ≠ 0 := by
  rw [f32IsNan, decide_eq_true_iff, f32Exp_eq, f32Frac_eq]

theorem f32Value_of_isNan {a : Word32} (h : f32IsNan a = true) : f32Value a = .nan := by
  obtain ⟨he, hf⟩ := (f32IsNan_iff a).1 h
  rw [f32Value, if_pos he, if_neg hf]

/-- A binary32 that is neither a NaN nor one of the two infinities is finite. -/
theorem f32Exp_ne_of_finite {a : Word32} (hnan : f32IsNan a = false) (hpos : a ≠ 0x7F800000) (hneg : a ≠ 0xFF800000) :
    f32Exp a ≠ 255 := by
  intro he
  have hf : f32Frac a = 0 := by
    by_contra hf
    rw [(f32IsNan_iff a).2 ⟨he, hf⟩] at hnan
    cases hnan
  cases hs : f32Sign a with
  | false => exact hpos (f32_eq_of_fields hs he hf)
  | true => exact hneg (f32_eq_of_fields hs he hf)

/-- The integer the machine holds for a finite binary32 is `real(a) * 2^149`. -/
theorem f32Value_finite {a : Word32} (h : f32Exp a ≠ 255) :
    ∃ k : ℤ, f32Value a = .finite k ∧ f32Real a = some ((k : ℚ) / 2 ^ 149) :=
  ⟨_, f32Value_of_exp_ne h, by rw [f32Real_eq_magnitude h]; push_cast; rfl⟩

/-! ### Rounding (R101) -/

/-- EVEN takes the quotient or the next integer, as twice the remainder is below or above the denominator; equal to it is a
tie. -/
theorem roundMagnitude_even_cases (num den : ℕ) :
    (2 * (num % den) < den ∧ roundMagnitude .even num den = num / den)
    ∨ (den < 2 * (num % den) ∧ roundMagnitude .even num den = num / den + 1)
    ∨ (2 * (num % den) = den ∧ Even (roundMagnitude .even num den)
      ∧ (roundMagnitude .even num den = num / den ∨ roundMagnitude .even num den = num / den + 1)) := by
  simp only [roundMagnitude, Nat.even_iff]
  split_ifs <;> omega

/-- The EVEN rule of R101 for a quotient, cleared of denominators: `2 * (num - den * n)` against `den`. -/
theorem roundsTo_even_of_int {num n r : ℤ} {den : ℕ} (hd : 0 < den) (hr : r = 2 * (num - den * n)) (hlo : -den ≤ r)
    (hhi : r ≤ den) (htie : r = den ∨ r = -den → Even n) : RoundsTo .even ((num : ℚ) / den) n := by
  have hd' : (0 : ℚ) < 2 * den := by positivity
  have hdist : |(num : ℚ) / den - n| = (|r| : ℤ) / (2 * den) := by
    have hdiff : (num : ℚ) / den - n = r / (2 * den) := by
      rw [hr]
      push_cast
      field_simp
    rw [hdiff, abs_div, abs_of_pos hd', Int.cast_abs]
  have hhalf : (1 : ℚ) / 2 = (den : ℤ) / (2 * den) := by
    push_cast
    field_simp
  rw [RoundsTo, hdist, hhalf, div_le_div_iff_of_pos_right hd', div_left_inj' hd'.ne', Int.cast_le, Int.cast_inj]
  exact ⟨abs_le.2 ⟨hlo, hhi⟩, fun h => htie ((abs_eq (Int.natCast_nonneg den)).1 h)⟩

theorem roundsTo_even_roundMagnitude (num : ℕ) {den : ℕ} (hd : 0 < den) :
    RoundsTo .even ((num : ℚ) / den) (roundMagnitude .even num den : ℕ) := by
  have hnum : (num : ℤ) = den * (num / den : ℕ) + (num % den : ℕ) := by exact_mod_cast (Nat.div_add_mod num den).symm
  have hmod := Nat.mod_lt num hd
  have hdown : 2 * ((num : ℤ) - den * (num / den : ℕ)) = 2 * (num % den : ℕ) := by rw [hnum]; ring
  have hup : 2 * ((num : ℤ) - den * (num / den + 1 : ℕ)) = 2 * (num % den : ℕ) - 2 * den := by
    rw [Nat.cast_succ]
    linarith
  obtain ⟨hlt, e⟩ | ⟨hgt, e⟩ | ⟨htie, heven, e | e⟩ := roundMagnitude_even_cases num den
  · rw [e]
    exact roundsTo_even_of_int (num := num) hd hdown.symm (by omega) (by omega) (by omega)
  · rw [e]
    exact roundsTo_even_of_int (num := num) hd hup.symm (by omega) (by omega) (by omega)
  · rw [e] at heven ⊢
    exact roundsTo_even_of_int (num := num) hd hdown.symm (by omega) (by omega) fun _ => by exact_mod_cast heven
  · rw [e] at heven ⊢
    exact roundsTo_even_of_int (num := num) hd hup.symm (by omega) (by omega) fun _ => by exact_mod_cast heven

theorem roundsTo_away_roundMagnitude (num : ℕ) {den : ℕ} (hd : 0 < den) :
    RoundsTo .away ((num : ℚ) / den) (roundMagnitude .away num den : ℕ) := by
  have hq : (0 : ℚ) ≤ num / den := by positivity
  have hd' : (den : ℚ) ≠ 0 := by positivity
  have hsum : (num : ℚ) / den + 1 / 2 = ((2 * num + den : ℕ) : ℚ) / ((2 * den : ℕ) : ℚ) := by
    push_cast
    field_simp
  rw [RoundsTo, abs_of_nonneg hq, if_neg hq.not_gt, hsum, Rat.floor_natCast_div_natCast, one_mul, roundMagnitude]
  rfl

theorem roundsTo_roundMagnitude (t : RoundTies) (num : ℕ) {den : ℕ} (hd : 0 < den) :
    RoundsTo t ((num : ℚ) / den) (roundMagnitude t num den : ℕ) := by
  cases t with
  | away => exact roundsTo_away_roundMagnitude num hd
  | even => exact roundsTo_even_roundMagnitude num hd

/-- Both tie rules treat the two signs alike. -/
theorem RoundsTo.neg {t : RoundTies} {q : ℚ} {n : ℤ} (hq : 0 < q) (h : RoundsTo t q n) : RoundsTo t (-q) (-n) := by
  cases t with
  | away =>
    rw [RoundsTo, if_neg hq.not_gt] at h
    rw [RoundsTo, if_pos (neg_neg_of_pos hq), abs_neg, h, one_mul, neg_one_mul]
  | even =>
    obtain ⟨hle, htie⟩ := h
    have hdist : |-q - ((-n : ℤ) : ℚ)| = |q - n| := by
      rw [← abs_neg]
      push_cast
      ring_nf
    rw [RoundsTo, hdist, even_neg]
    exact ⟨hle, htie⟩

theorem roundQuotient_natCast (t : RoundTies) (num : ℕ) {den : ℕ} (hd : 0 < den) :
    roundQuotient t num den = roundMagnitude t num den := by
  obtain rfl | hk := Nat.eq_zero_or_pos num
  · have hzero : roundMagnitude t 0 den = 0 := by
      cases t with
      | away => exact Nat.div_eq_of_lt (by omega)
      | even => simp [roundMagnitude, hd]
    simp [roundQuotient, hzero]
  · rw [roundQuotient, Int.sign_natCast_of_ne_zero hk.ne', one_mul, Int.natAbs_natCast]

theorem roundQuotient_neg (t : RoundTies) (num : ℤ) (den : ℕ) :
    roundQuotient t (-num) den = -roundQuotient t num den := by
  rw [roundQuotient, roundQuotient, Int.sign_neg, Int.natAbs_neg, neg_mul]

/-- The rounding of the machine is `round_T` of the exact quotient. -/
theorem roundsTo_roundQuotient (t : RoundTies) (num : ℤ) {den : ℕ} (hd : 0 < den) :
    RoundsTo t ((num : ℚ) / den) (roundQuotient t num den) := by
  cases num with
  | ofNat k =>
    rw [Int.ofNat_eq_natCast, roundQuotient_natCast t k hd]
    exact roundsTo_roundMagnitude t k hd
  | negSucc k =>
    rw [Int.negSucc_eq, ← Nat.cast_succ, roundQuotient_neg, roundQuotient_natCast t _ hd, Int.cast_neg, neg_div]
    exact (roundsTo_roundMagnitude t (k + 1) hd).neg (by positivity)

/-- `round_T(real(a) * 8)` for a finite input held as `real(a) * 2^149` (R103). -/
theorem roundsTo_fxRound (t : RoundTies) (scaled : ℤ) : RoundsTo t ((scaled : ℚ) / 2 ^ 149 * 8) (fxRound t scaled) := by
  have hscale : (scaled : ℚ) / 2 ^ 149 * 8 = (scaled : ℚ) / (2 ^ 146 : ℕ) := by
    push_cast
    ring
  rw [hscale]
  exact roundsTo_roundQuotient t scaled (by positivity)

/-! ### The range of a byte (R104, R105) -/

theorem fxClamp_inRange (m : OvfMode) {n : ℤ} (hlo : -128 ≤ n) (hhi : n ≤ 127) :
    fxClamp m n = (.ok, BitVec.ofInt 8 n) := if_pos ⟨hlo, hhi⟩

theorem fxClamp_above_sat {n : ℤ} (h : 127 < n) : fxClamp .sat n = (.fixOvf, 0x7F) := by
  rw [fxClamp, if_neg (by omega), if_pos h]

theorem fxClamp_below_sat {n : ℤ} (h : n < -128) : fxClamp .sat n = (.fixOvf, 0x80) := by
  rw [fxClamp, if_neg (by omega), if_neg (by omega)]

theorem fxClamp_outside_wrap {n : ℤ} (h : ¬(-128 ≤ n ∧ n ≤ 127)) : fxClamp .wrap n = (.fixOvf, BitVec.ofInt 8 n) :=
  if_neg h

/-! ### FX_ENC -/

theorem fxEncode_of_isNan (t : RoundTies) (m : OvfMode) {a : Word32} (h : f32IsNan a = true) :
    fxEncode t m a = (.fixOvf, 0x00) := by
  rw [fxEncode, f32Value_of_isNan h]

theorem fxEncode_of_finite (t : RoundTies) (m : OvfMode) {a : Word32} {k : ℤ} (h : f32Value a = .finite k) :
    fxEncode t m a = fxClamp m (fxRound t k) := by
  rw [fxEncode, h]

/-- Each infinity overflows, with its end of the range under SAT and 0 under WRAP (R105). -/
theorem fxEncode_posInf_sat (t : RoundTies) : fxEncode t .sat 0x7F800000 = (.fixOvf, 0x7F) := rfl

theorem fxEncode_negInf_sat (t : RoundTies) : fxEncode t .sat 0xFF800000 = (.fixOvf, 0x80) := rfl

theorem fxEncode_posInf_wrap (t : RoundTies) : fxEncode t .wrap 0x7F800000 = (.fixOvf, 0x00) := rfl

theorem fxEncode_negInf_wrap (t : RoundTies) : fxEncode t .wrap 0xFF800000 = (.fixOvf, 0x00) := rfl

/-- The port shows what `fxEncode` gives. -/
theorem State.respond_answers_of_eq (s : State) {res : Status × Byte} {st : Status} {x : Byte} (h : res = (st, x)) :
    (s.respond res.1 (res.2.setWidth 32)).Answers st.code (x.setWidth 32) [] := by
  rw [h]
  exact s.respond_answers_nil st _

/-- Settles O25: a NaN and the infinities by their fields; a finite input is an integer over `2^149`, whose rounding
`roundsTo_fxRound` ties to the rationals. -/
theorem fxEncRoundsAndReports : Obligations.FxEncRoundsAndReports := by
  intro s a b c
  refine ⟨decode_opWord_fxEnc a b c, _, exec_fxEnc a s, s.respond_sameBlock _ _ _, fun hnan => ?_, fun hpos => ?_,
    fun hneg => ?_, fun hnan hpos hneg => ?_⟩
  · exact s.respond_answers_of_eq (fxEncode_of_isNan _ _ hnan)
  · subst hpos
    cases s.config.ovfMode with
    | sat => exact s.respond_answers_of_eq (fxEncode_posInf_sat _)
    | wrap => exact s.respond_answers_of_eq (fxEncode_posInf_wrap _)
  · subst hneg
    cases s.config.ovfMode with
    | sat => exact s.respond_answers_of_eq (fxEncode_negInf_sat _)
    | wrap => exact s.respond_answers_of_eq (fxEncode_negInf_wrap _)
  · obtain ⟨k, hval, hreal⟩ := f32Value_finite (f32Exp_ne_of_finite hnan hpos hneg)
    refine ⟨_, _, hreal, roundsTo_fxRound _ k, ?_⟩
    rw [fxEncode_of_finite _ _ hval]
    refine ⟨fun hlo hhi => ?_, fun habove => ?_, fun hbelow => ?_⟩
    · exact s.respond_answers_of_eq (fxClamp_inRange _ hlo hhi)
    · cases s.config.ovfMode with
      | sat => exact s.respond_answers_of_eq (fxClamp_above_sat habove)
      | wrap => exact s.respond_answers_of_eq (fxClamp_outside_wrap (by omega))
    · cases s.config.ovfMode with
      | sat => exact s.respond_answers_of_eq (fxClamp_below_sat hbelow)
      | wrap => exact s.respond_answers_of_eq (fxClamp_outside_wrap (by omega))

/-! ### FX_DEC -/

/-- The position of the leading one of the magnitude of a byte, which fixes the exponent of FX_DEC (R107). -/
def fxLog (x : Byte) : ℕ := Nat.log2 x.toInt.natAbs

theorem natAbs_toInt_pos {x : Byte} (hx : x ≠ 0) : x.toInt.natAbs ≠ 0 := by
  rw [Int.natAbs_ne_zero]
  exact fun h => hx (BitVec.toInt_inj.1 (h.trans BitVec.toInt_zero.symm))

theorem two_pow_fxLog_le {x : Byte} (hx : x ≠ 0) : 2 ^ fxLog x ≤ x.toInt.natAbs := Nat.log2_self_le (natAbs_toInt_pos hx)

theorem lt_two_pow_fxLog (x : Byte) : x.toInt.natAbs < 2 ^ (fxLog x + 1) := Nat.lt_log2_self

/-- The magnitude of a byte is at most 2^7. -/
theorem fxLog_le {x : Byte} (hx : x ≠ 0) : fxLog x ≤ 7 := by
  have hle : x.toInt.natAbs ≤ 2 ^ 7 := by
    have hlo : -128 ≤ x.toInt := BitVec.le_toInt x
    have hhi : x.toInt < 128 := BitVec.toInt_lt
    omega
  exact (Nat.pow_le_pow_iff_right (by decide)).1 ((two_pow_fxLog_le hx).trans hle)

/-- The fields of FX_DEC for a byte other than 0 (R107). -/
theorem fxDecode_eq {x : Byte} (hx : x ≠ 0) :
    fxDecode x = BitVec.ofBool (decide (x.toInt < 0)) ++ BitVec.ofNat 8 (fxLog x + 124)
      ++ BitVec.ofNat 23 (x.toInt.natAbs <<< (23 - fxLog x)) := if_neg hx

theorem f32Sign_fxDecode {x : Byte} (hx : x ≠ 0) : f32Sign (fxDecode x) = decide (x.toInt < 0) := by
  rw [fxDecode_eq hx, f32Sign_word]

theorem f32Exp_fxDecode {x : Byte} (hx : x ≠ 0) : f32Exp (fxDecode x) = fxLog x + 124 := by
  have hlog := fxLog_le hx
  rw [fxDecode_eq hx, f32Exp_word, BitVec.toNat_ofNat]
  omega

theorem f32Frac_fxDecode {x : Byte} (hx : x ≠ 0) :
    f32Frac (fxDecode x) = x.toInt.natAbs * 2 ^ (23 - fxLog x) % 2 ^ 23 := by
  rw [fxDecode_eq hx, f32Frac_word, BitVec.toNat_ofNat, Nat.shiftLeft_eq]

theorem fxDecode_toNat {x : Byte} (hx : x ≠ 0) :
    (fxDecode x).toNat = (if x.toInt < 0 then 2 ^ 31 else 0) + (fxLog x + 124) * 2 ^ 23
      + x.toInt.natAbs * 2 ^ (23 - fxLog x) % 2 ^ 23 := by
  rw [f32_toNat_eq, f32Sign_fxDecode hx, f32Exp_fxDecode hx, f32Frac_fxDecode hx]
  split <;> simp [*]

/-- The leading one of the magnitude is the implied one of the significand; the fraction keeps all the bits below it. -/
theorem fxDecode_significand {x : Byte} (hx : x ≠ 0) :
    2 ^ 23 + f32Frac (fxDecode x) = x.toInt.natAbs * 2 ^ (23 - fxLog x) := by
  have hlog := fxLog_le hx
  have hlo : 2 ^ 23 ≤ x.toInt.natAbs * 2 ^ (23 - fxLog x) := calc
    2 ^ 23 = 2 ^ fxLog x * 2 ^ (23 - fxLog x) := by rw [← pow_add]; congr 1; omega
    _ ≤ _ := Nat.mul_le_mul_right _ (two_pow_fxLog_le hx)
  have hhi : x.toInt.natAbs * 2 ^ (23 - fxLog x) < 2 ^ 24 := calc
    _ < 2 ^ (fxLog x + 1) * 2 ^ (23 - fxLog x) := Nat.mul_lt_mul_of_pos_right (lt_two_pow_fxLog x) (by positivity)
    _ = 2 ^ 24 := by rw [← pow_add]; congr 1; omega
  rw [f32Frac_fxDecode hx]
  omega

/-- The byte 0 decodes to +0.0 (R107). -/
theorem f32Real_fxDecode_zero : f32Real (fxDecode 0) = some (fixReal 0) := by
  have hmag : f32Magnitude (fxDecode 0) = 0 := rfl
  have hfix : fixReal 0 = 0 := zero_div 8
  rw [f32Real_eq_magnitude (by decide), hmag, hfix, Nat.cast_zero, mul_zero, zero_div]

/-- R107: the binary32 FX_DEC answers is `s8val(x) / 8`. -/
theorem f32Real_fxDecode (x : Byte) : f32Real (fxDecode x) = some (fixReal x) := by
  obtain rfl | hx := eq_or_ne x 0
  · exact f32Real_fxDecode_zero
  have hlog := fxLog_le hx
  have hexp := f32Exp_fxDecode hx
  have hsig : (2 : ℚ) ^ 23 + f32Frac (fxDecode x) = x.toInt.natAbs * 2 ^ (23 - fxLog x) := by
    exact_mod_cast fxDecode_significand hx
  have hscale : (2 : ℚ) ^ (23 - fxLog x) * 2 ^ (((fxLog x + 124 : ℕ) : ℤ) - 150) = 1 / 8 := by
    rw [← zpow_natCast, ← zpow_add₀ two_ne_zero]
    have hsum : ((23 - fxLog x : ℕ) : ℤ) + (((fxLog x + 124 : ℕ) : ℤ) - 150) = -3 := by omega
    rw [hsum]
    norm_num
  have hsign : (-1 : ℚ) ^ (decide (x.toInt < 0)).toNat * x.toInt.natAbs = x.toInt := by
    rw [Nat.cast_natAbs, Int.cast_abs]
    obtain h | h := lt_or_ge x.toInt 0
    · rw [decide_eq_true h, abs_of_neg (by exact_mod_cast h)]
      simp
    · rw [decide_eq_false h.not_gt, abs_of_nonneg (by exact_mod_cast h)]
      simp
  rw [f32Real_of_normal (by omega) (by omega), hsig, hexp, f32Sign_fxDecode hx, ← mul_assoc, hsign, mul_assoc, hscale,
    fixReal, mul_one_div]

/-- Settles O28: every byte but 0 decodes to a normal number whose significand is exactly the magnitude of the byte. -/
theorem fxDecIsExact : Obligations.FxDecIsExact := by
  intro s a b c
  refine ⟨decode_opWord_fxDec a b c, _, _, exec_fxDec _ s, s.respond_sameBlock .ok _ [], s.respond_answers_nil .ok _,
    f32Real_fxDecode _, fun hzero => ?_, fun hx => ⟨_, two_pow_fxLog_le hx, lt_two_pow_fxLog _, fxDecode_toNat hx⟩⟩
  rw [hzero]
  rfl

end Sys2Proof.Machine
end

section
/-! PROOFS. The serial packet framer of 42_framer.md: the words of its four operations (R67 to R69), the CRC field of a built
frame (R61, R126, R129), the fields of a received one (R120), and what RX_BYTE, RX_RESET, CMD_ENC and TLM_ENC answer (R121,
R122, R127, R130). -/

namespace Sys2Proof

/-! ### The words of the framer operations -/

theorem decode_opWord_rxByte (a : Word32) (b : Half) (c : Word48) :
    decode (opWord 0x01 a b c) = .instr (.rxByte (a.extractLsb' 0 8)) := by
  simp only [decode, Laws.EncodeOp.opField_opWord, BitVec.ofNat_eq_ofNat, aField_opWord]

theorem decode_opWord_rxReset (a : Word32) (b : Half) (c : Word48) : decode (opWord 0x02 a b c) = .instr .rxReset := by
  simp only [decode, Laws.EncodeOp.opField_opWord, BitVec.ofNat_eq_ofNat]

theorem decode_opWord_cmdEnc (a : Word32) (b : Half) (c : Word48) :
    decode (opWord 0x30 a b c) = .instr (.cmdEnc (a.extractLsb' 0 16)) := by
  simp only [decode, Laws.EncodeOp.opField_opWord, BitVec.ofNat_eq_ofNat, aField_opWord]

theorem decode_opWord_tlmEnc (a : Word32) (b : Half) (c : Word48) :
    decode (opWord 0x31 a b c) = .instr (tlmOperands a b c) := by
  simp only [decode, Laws.EncodeOp.opField_opWord, BitVec.ofNat_eq_ofNat, aField_opWord, bField_opWord, cField_opWord]

/-- A field above the low part of a concatenation is a field of the high part. -/
theorem extractLsb'_append_skip {m n : ℕ} (hi : BitVec m) (lo : BitVec n) (k len : ℕ) :
    (hi ++ lo).extractLsb' (n + k) len = hi.extractLsb' k len := by
  rw [BitVec.extractLsb'_append_eq_of_le (Nat.le_add_right n k), Nat.add_sub_cancel_left]

/-- The assembly of R67 to R69, undone field by field. -/
theorem tlmOperands_append (status : Half) (voltage : Byte) (current : Half)
    (speed magX magY magZ gyroX gyroY gyroZ : Byte) :
    tlmOperands (current ++ status) (speed ++ voltage) (gyroZ ++ gyroY ++ gyroX ++ magZ ++ magY ++ magX)
      = .tlmEnc status voltage current speed magX magY magZ gyroX gyroY gyroZ := by
  have skipX (k : ℕ) := extractLsb'_append_skip (gyroZ ++ gyroY ++ gyroX ++ magZ ++ magY) magX k 8
  have skipY (k : ℕ) := extractLsb'_append_skip (gyroZ ++ gyroY ++ gyroX ++ magZ) magY k 8
  have skipZ (k : ℕ) := extractLsb'_append_skip (gyroZ ++ gyroY ++ gyroX) magZ k 8
  have skipGyroX (k : ℕ) := extractLsb'_append_skip (gyroZ ++ gyroY) gyroX k 8
  rw [tlmOperands, Instr.tlmEnc.injEq]
  refine ⟨BitVec.extractLsb'_append_eq_right, BitVec.extractLsb'_append_eq_right, BitVec.extractLsb'_append_eq_left,
    BitVec.extractLsb'_append_eq_left, BitVec.extractLsb'_append_eq_right, ?_, ?_, ?_, ?_, ?_⟩
  · exact (skipX 0).trans BitVec.extractLsb'_append_eq_right
  · exact (skipX 8).trans <| (skipY 0).trans BitVec.extractLsb'_append_eq_right
  · exact (skipX 16).trans <| (skipY 8).trans <| (skipZ 0).trans BitVec.extractLsb'_append_eq_right
  · exact (skipX 24).trans <| (skipY 16).trans <| (skipZ 8).trans <| (skipGyroX 0).trans BitVec.extractLsb'_append_eq_right
  · exact (skipX 32).trans <| (skipY 24).trans <| (skipZ 16).trans <| (skipGyroX 8).trans BitVec.extractLsb'_append_eq_left

end Sys2Proof

namespace Sys2Proof.Machine

/-! ### Two-byte fields, little-endian (20_memory.md R36) -/

theorem le16_eq_append (lo hi : Byte) : le16 lo hi = hi ++ lo := by
  rw [le16, BitVec.append_def, BitVec.shiftLeftZeroExtend_eq, BitVec.or_comm]
  simp

theorem zext16_eq_append (b : Byte) : zext16 b = (0 : Byte) ++ b := by
  simp [zext16, BitVec.setWidth_eq_append]

/-- The wire bytes of a 16-bit field read back. -/
theorem le16_lo8_hi8 (v : Half) : le16 (lo8 v) (hi8 v) = v := by
  rw [le16_eq_append]
  exact (BitVec.extractLsb'_append_extractLsb'_eq_extractLsb' rfl).trans BitVec.extractLsb'_eq_self

/-! ### The two frame builders -/

/-- The CRC field of a built frame is the CRC of its body (R61). -/
theorem frameCrcField_withCrc (p : CrcParams) (body : List Byte) : frameCrcField (withCrc p body) = crc16 p body := by
  have hlow : (withCrc p body).getD body.length 0 = lo8 (crc16 p body) := by simp [withCrc, wire16]
  have hhigh : (withCrc p body).getD (body.length + 1) 0 = hi8 (crc16 p body) := by simp [withCrc, wire16]
  rw [frameCrcField, withCrc_length, Nat.add_sub_cancel, hlow, show body.length + 2 - 1 = body.length + 1 from rfl, hhigh,
    le16_lo8_hi8]

/-- Reporting a built frame shows its body, then the CRC with the low byte first, and R is the CRC (R127, R130). -/
theorem State.reportBuilt_withCrc_answers (s : State) (p : CrcParams) {body : List Byte} (h : body.length ≤ 12) :
    (s.reportBuilt (withCrc p body)).Answers 0x00 ((crc16 p body).setWidth 32)
      (body ++ [(crc16 p body).extractLsb' 0 8, (crc16 p body).extractLsb' 8 8]) := by
  have hfit : (withCrc p body).length ≤ packetLen := by
    rw [withCrc_length]
    exact Nat.add_le_add_right h 2
  rw [State.reportBuilt, frameCrcField_withCrc]
  exact s.respond_answers .ok _ (withCrc p body) hfit

/-- The opcode bytes of a frame, from operand A of the word (R56, R126). -/
theorem cmdBody_extractLsb' (n : CommandLen) (a : Word32) :
    cmdBody n (a.extractLsb' 0 16)
      = if n = .four then [a.extractLsb' 0 8, a.extractLsb' 8 8] else [a.extractLsb' 0 8] := by
  have hlo : lo8 (a.extractLsb' 0 16) = a.extractLsb' 0 8 := BitVec.extractLsb'_extractLsb'_of_le (by decide)
  have hhi : hi8 (a.extractLsb' 0 16) = a.extractLsb' 8 8 := BitVec.extractLsb'_extractLsb'_of_le (by decide)
  cases n with
  | three => rw [cmdBody, hlo, if_neg (by decide)]
  | four => rw [cmdBody, hlo, hhi, if_pos rfl]

theorem cmdBody_length_le (n : CommandLen) (o : Half) : (cmdBody n o).length ≤ 12 := by
  rw [cmdBody_length]
  cases n <;> decide

/-- Settles O34: the frame is its opcode bytes with their CRC, and the operation only answers. -/
theorem cmdEncBuildsCommandFrame : Obligations.CmdEncBuildsCommandFrame := by
  intro s a b c
  refine ⟨decode_opWord_cmdEnc a b c, _, exec_cmdEnc _ s, s.respond_sameBlock _ _ _, ?_⟩
  rw [← cmdBody_extractLsb']
  exact s.reportBuilt_withCrc_answers s.config.crc (cmdBody_length_le _ _)

/-- Settles O35: the operands come back from the word, the frame is their bytes with the CRC, and the operation only
answers. -/
theorem tlmEncBuildsTelemetryFrame : Obligations.TlmEncBuildsTelemetryFrame := by
  intro s status voltage current speed magX magY magZ gyroX gyroY gyroZ
  refine ⟨?_, _, exec_tlmEnc status voltage current speed magX magY magZ gyroX gyroY gyroZ s, s.respond_sameBlock _ _ _,
    s.reportBuilt_withCrc_answers s.config.crc (Nat.le_refl 12)⟩
  rw [decode_opWord_tlmEnc, tlmOperands_append]

/-! ### RX_RESET -/

/-- Settles O33: the two counts of `exec_rxReset`, of which only the empty one has R = 0. -/
theorem rxResetFlushesPartialFrame : Obligations.RxResetFlushesPartialFrame := by
  intro s a b c
  refine ⟨decode_opWord_rxReset a b c, _, exec_rxReset s, rfl, rfl, rfl, ⟨rfl, rfl⟩, fun h => ?_, fun h => ?_⟩
  · rw [if_pos h, h]
    exact State.respond_answers_nil _ .ok 0
  · rw [if_neg h]
    exact State.respond_answers_nil _ .flushPartial _

/-! ### The fields of a received frame -/

theorem State.frame_getD {s : State} {i : Nat} (h : i < s.commandLen) : s.frame.getD i 0 = s.readRxbuf i := by
  have hi : i < s.frame.length := s.frame_length.symm ▸ h
  rw [List.getD_eq_getElem _ _ hi, State.frame_getElem]

theorem State.frame_take {s : State} {n : Nat} (h : n ≤ s.commandLen) :
    s.frame.take n = (List.range n).map s.readRxbuf := by
  rw [State.frame, ← List.map_take, List.take_range, Nat.min_eq_left h]

theorem State.two_lt_commandLen (s : State) : 2 < s.commandLen := by
  obtain h | h := s.commandLen_cases <;> omega

theorem State.commandLen_le_four (s : State) : s.commandLen ≤ 4 := by
  obtain h | h := s.commandLen_cases <;> omega

/-- The opcode field of the frame, high byte first (R62, R63). -/
theorem State.frameOpcode_frame (s : State) :
    frameOpcode s.config.commandLen s.frame
      = (if s.config.commandLen = .four then s.readRxbuf 1 else 0) ++ s.readRxbuf 0 := by
  have hlen := s.two_lt_commandLen
  have hlo : s.frame.getD 0 0 = s.readRxbuf 0 := State.frame_getD (by omega)
  have hhi : s.frame.getD 1 0 = s.readRxbuf 1 := State.frame_getD (by omega)
  cases h : s.config.commandLen with
  | three => rw [frameOpcode, hlo, zext16_eq_append, if_neg (by decide)]
  | four => rw [frameOpcode, hlo, hhi, le16_eq_append, if_pos rfl]

/-- The validation of R120 in terms of RXBUF. -/
theorem State.validate_frame (s : State) :
    validate s.config s.frame =
      { ok := decide (crc16 s.config.crc ((List.range (s.commandLen - 2)).map s.readRxbuf)
          = s.readRxbuf (s.commandLen - 1) ++ s.readRxbuf (s.commandLen - 2))
        opcode := (if s.config.commandLen = .four then s.readRxbuf 1 else 0) ++ s.readRxbuf 0
        computed := crc16 s.config.crc ((List.range (s.commandLen - 2)).map s.readRxbuf) } := by
  have hlen := s.two_lt_commandLen
  have hlo : s.frame.getD (s.commandLen - 2) 0 = s.readRxbuf (s.commandLen - 2) := State.frame_getD (by omega)
  have hhi : s.frame.getD (s.commandLen - 1) 0 = s.readRxbuf (s.commandLen - 1) := State.frame_getD (by omega)
  rw [← State.frame_take (Nat.sub_le _ _), ← hlo, ← hhi, ← le16_eq_append, ← s.frameOpcode_frame]
  rfl

/-! ### The byte that completes a frame -/

/-- The frame that the byte `x` completes at index `k`: the bytes already received, then `x`. -/
theorem State.frame_writeRxbuf_last {s : State} {k : Nat} (h : k + 1 = s.commandLen) (x : Byte) :
    (s.writeRxbuf k x).frame = (List.range k).map s.readRxbuf ++ [x] := by
  have hk : k < 4 := by
    have := s.commandLen_le_four
    omega
  have hbefore : (List.range k).map (s.writeRxbuf k x).readRxbuf = (List.range k).map s.readRxbuf :=
    List.map_congr_left fun i hi => s.readRxbuf_writeRxbuf_other k i x (List.mem_range.1 hi).ne
  rw [State.frame, State.writeRxbuf_commandLen, ← h, List.range_succ, List.map_append, hbefore, List.map_singleton,
    s.readRxbuf_writeRxbuf_same k x hk]

/-- Its validation: the CRC field is `x` above the byte before it, and all else was in RXBUF already. -/
theorem State.validate_writeRxbuf_last {s : State} {k : Nat} (h : k + 1 = s.commandLen) (x : Byte) :
    validate s.config (s.writeRxbuf k x).frame =
      { ok := decide (crc16 s.config.crc ((List.range (k - 1)).map s.readRxbuf) = x ++ s.readRxbuf (k - 1))
        opcode := (if s.config.commandLen = .four then s.readRxbuf 1 else 0) ++ s.readRxbuf 0
        computed := crc16 s.config.crc ((List.range (k - 1)).map s.readRxbuf) } := by
  have hlen := s.two_lt_commandLen
  have hlen' := s.commandLen_le_four
  have hlast : (s.writeRxbuf k x).readRxbuf k = x := s.readRxbuf_writeRxbuf_same k x (by omega)
  have hread {i : Nat} (hi : i ≠ k) : (s.writeRxbuf k x).readRxbuf i = s.readRxbuf i :=
    s.readRxbuf_writeRxbuf_other k i x hi
  have hbody : (List.range (k - 1)).map (s.writeRxbuf k x).readRxbuf = (List.range (k - 1)).map s.readRxbuf :=
    List.map_congr_left fun i hi => hread (by have := List.mem_range.1 hi; omega)
  have hv := (s.writeRxbuf k x).validate_frame
  rw [State.writeRxbuf_commandLen, ← h, Nat.add_sub_cancel, show k + 1 - 2 = k - 1 from rfl, hlast, hbody,
    hread (i := k - 1) (by omega), hread (i := 1) (by omega), hread (i := 0) (by omega)] at hv
  exact hv

/-- The report of a frame that has been validated: FRAME_OK or FRAME_CRC_ERR, as the CRC matches or not (R121). -/
theorem State.reportFrame_answers {s : State} {frame : List Byte} {computed declared opcode : Half}
    (hfit : frame.length ≤ packetLen)
    (hv : validate s.config frame = { ok := decide (computed = declared), opcode := opcode, computed := computed }) :
    (computed = declared → (s.reportFrame frame).Answers 0x02 (computed ++ opcode) frame)
      ∧ (computed ≠ declared → (s.reportFrame frame).Answers 0x03 (computed ++ (0 : Half)) frame) := by
  rw [State.reportFrame, hv]
  refine ⟨fun h => ?_, fun h => ?_⟩
  · rw [if_pos (decide_eq_true h)]
    exact s.respond_answers .frameOk _ frame hfit
  · rw [if_neg (by simpa using h)]
    exact s.respond_answers .frameCrcErr _ frame hfit

/-- Reporting a frame leaves RXBUF, RXCNT and everything else as it is. -/
theorem State.reportFrame_sameBlock (s : State) (frame : List Byte) : SameBlock s (s.reportFrame frame) := by
  rw [State.reportFrame_eq_respond]
  exact s.respond_sameBlock _ _ _

/-- What one byte leaves in RXBUF, whatever the count and the response become (R121). -/
theorem State.readRxbuf_of_rxbuf_eq_writeRxbuf {s t : State} {k : Nat} {x : Byte} (hk : k < 4)
    (h : t.rxbuf = (s.writeRxbuf k x).rxbuf) :
    t.readRxbuf k = x ∧ ∀ i, i ≠ k → t.readRxbuf i = s.readRxbuf i := by
  have hread (i : Nat) : t.readRxbuf i = (s.writeRxbuf k x).readRxbuf i := by rw [State.readRxbuf, h, State.readRxbuf]
  exact ⟨(hread k).trans (s.readRxbuf_writeRxbuf_same k x hk),
    fun i hi => (hread i).trans (s.readRxbuf_writeRxbuf_other k i x hi)⟩

/-- Settles O32: the byte is appended below COMMAND_LEN; at COMMAND_LEN the frame is the bytes already received and the new
one, and its validation is `State.validate_writeRxbuf_last`. -/
theorem rxByteAppendsOrCompletesFrame : Obligations.RxByteAppendsOrCompletesFrame := by
  intro s a b c hlt
  change s.rxcnt.toNat < s.commandLen at hlt
  have hk : s.rxcnt.toNat < 4 := hlt.trans_le s.commandLen_le_four
  refine ⟨decode_opWord_rxByte a b c, ?_⟩
  generalize a.extractLsb' 0 8 = x
  obtain hmore | hlast := lt_or_ge (s.rxcnt.toNat + 1) s.commandLen
  · obtain ⟨hsame, hother⟩ := State.readRxbuf_of_rxbuf_eq_writeRxbuf hk (Eq.refl (s.writeRxbuf _ x).rxbuf)
    have hcnt : (BitVec.ofNat 3 (s.rxcnt.toNat + 1)).toNat = s.rxcnt.toNat + 1 := by
      rw [BitVec.toNat_ofNat]
      omega
    exact ⟨_, exec_rxByte_append hmore, ⟨rfl, rfl⟩, rfl, hsame, hother,
      fun _ => ⟨hcnt, State.respond_answers_nil _ .pending _⟩, fun h => absurd h hmore.ne⟩
  · have hfull : s.rxcnt.toNat + 1 = s.commandLen := Nat.le_antisymm hlt hlast
    have hexec := exec_rxByte_complete (b := x) hlast
    have hv := State.validate_writeRxbuf_last hfull x
    rw [State.frame_writeRxbuf_last hfull x] at hexec hv
    have hfit : ((List.range s.rxcnt.toNat).map s.readRxbuf ++ [x]).length ≤ packetLen := by
      rw [List.length_append, List.length_map, List.length_range, List.length_singleton, hfull]
      exact s.commandLen_le_four.trans (by decide)
    obtain ⟨hsur, ⟨hbuf, hcnt⟩, hcrc⟩ := ((s.writeRxbuf s.rxcnt.toNat x).setRxcnt 0).reportFrame_sameBlock
      ((List.range s.rxcnt.toNat).map s.readRxbuf ++ [x])
    obtain ⟨hsame, hother⟩ := State.readRxbuf_of_rxbuf_eq_writeRxbuf hk hbuf
    exact ⟨_, hexec, hsur, hcrc, hsame, hother, fun h => absurd h hlast.not_gt,
      fun _ => ⟨hcnt, State.reportFrame_answers hfit hv⟩⟩

end Sys2Proof.Machine
end

section
/-! PROOFS. Reset (70_reset_and_hazards.md R181). What reset leaves in RXBUF is unobservable, since RXCNT is 0 and no step
observes an element at or above RXCNT (10_state.md R33, R34): states that differ in such elements only stay so, step by step,
and answer alike. -/

namespace Sys2Proof.Machine

/-! ### States that differ in unreceived bytes only -/

section
variable {s t : State}

theorem SameVisible.config (h : SameVisible s t) : t.config = s.config :=
  let ⟨hcfg, _⟩ := h
  hcfg

theorem SameVisible.rxcnt (h : SameVisible s t) : t.rxcnt = s.rxcnt :=
  let ⟨_, hcnt, _⟩ := h
  hcnt

theorem SameVisible.crcAcc (h : SameVisible s t) : t.crcAcc = s.crcAcc :=
  let ⟨_, _, hcrc, _⟩ := h
  hcrc

theorem SameVisible.response (h : SameVisible s t) : t.response = s.response :=
  let ⟨_, _, _, hresp, _⟩ := h
  hresp

theorem SameVisible.inputs (h : SameVisible s t) : t.inputs = s.inputs :=
  let ⟨_, _, _, _, hin, _⟩ := h
  hin

theorem SameVisible.readRxbuf (h : SameVisible s t) {i : Nat} (hi : i < s.rxcnt.toNat) : t.readRxbuf i = s.readRxbuf i :=
  let ⟨_, _, _, _, _, hbuf⟩ := h
  hbuf i hi

theorem SameVisible.commandLen (h : SameVisible s t) : t.commandLen = s.commandLen := State.commandLen_congr h.config

theorem SameVisible.setInputs (h : SameVisible s t) (rest : List Input) :
    SameVisible { s with inputs := rest } { t with inputs := rest } := by
  obtain ⟨hcfg, hcnt, hcrc, hresp, -, hbuf⟩ := h
  exact ⟨hcfg, hcnt, hcrc, hresp, rfl, hbuf⟩

theorem SameVisible.idle (h : SameVisible s t) : SameVisible s.idle t.idle := by
  obtain ⟨hcfg, hcnt, hcrc, -, hin, hbuf⟩ := h
  exact ⟨hcfg, hcnt, hcrc, rfl, hin, hbuf⟩

theorem SameVisible.respond (h : SameVisible s t) (st : Status) (r : Word32) (out : List Byte) :
    SameVisible (s.respond st r out) (t.respond st r out) := by
  obtain ⟨hcfg, hcnt, hcrc, -, hin, hbuf⟩ := h
  exact ⟨hcfg, hcnt, hcrc, rfl, hin, hbuf⟩

theorem SameVisible.reportFrame (h : SameVisible s t) (frame : List Byte) :
    SameVisible (s.reportFrame frame) (t.reportFrame frame) := by
  rw [State.reportFrame_eq_respond, State.reportFrame_eq_respond, h.config]
  exact h.respond _ _ _

theorem SameVisible.setCrcAcc (h : SameVisible s t) (v : Half) : SameVisible (s.setCrcAcc v) (t.setCrcAcc v) := by
  obtain ⟨hcfg, hcnt, -, hresp, hin, hbuf⟩ := h
  exact ⟨hcfg, hcnt, rfl, hresp, hin, hbuf⟩

/-- With a count of 0 no byte of RXBUF is visible. -/
theorem SameVisible.setRxcnt_zero (h : SameVisible s t) : SameVisible (s.setRxcnt 0) (t.setRxcnt 0) := by
  obtain ⟨hcfg, -, hcrc, hresp, hin, -⟩ := h
  exact ⟨hcfg, rfl, hcrc, hresp, hin, fun i hi => absurd hi i.not_lt_zero⟩

theorem sameVisible_setRxbuf (h : s.rxcnt = 0) (contents : Vector Byte 4) :
    SameVisible s { s with rxbuf := contents } :=
  ⟨rfl, rfl, rfl, rfl, rfl, fun i hi => absurd hi (by simp [h])⟩

/-! ### The byte that RX_BYTE writes, at index RXCNT -/

/-- The bytes already received agree, and so does the new one above them. -/
theorem SameVisible.readRxbuf_writeRxbuf (h : SameVisible s t) (b : Byte) {i : Nat} (hi : i ≤ s.rxcnt.toNat) (hi4 : i < 4) :
    (t.writeRxbuf s.rxcnt.toNat b).readRxbuf i = (s.writeRxbuf s.rxcnt.toNat b).readRxbuf i := by
  obtain rfl | hlt := hi.eq_or_lt
  · rw [State.readRxbuf_writeRxbuf_same _ _ _ hi4, State.readRxbuf_writeRxbuf_same _ _ _ hi4]
  · rw [State.readRxbuf_writeRxbuf_other _ _ _ _ hlt.ne, State.readRxbuf_writeRxbuf_other _ _ _ _ hlt.ne, h.readRxbuf hlt]

theorem SameVisible.writeRxbuf (h : SameVisible s t) (b : Byte) :
    SameVisible (s.writeRxbuf s.rxcnt.toNat b) (t.writeRxbuf s.rxcnt.toNat b) := by
  obtain ⟨hcfg, hcnt, hcrc, hresp, hin, hbuf⟩ := h
  refine ⟨hcfg, hcnt, hcrc, hresp, hin, fun i (hi : i < s.rxcnt.toNat) => ?_⟩
  rw [State.readRxbuf_writeRxbuf_other _ _ _ _ hi.ne, State.readRxbuf_writeRxbuf_other _ _ _ _ hi.ne, hbuf i hi]

/-- The byte appended to the partial frame becomes visible, and is the same in both states. -/
theorem SameVisible.append (h : SameVisible s t) (b : Byte) (hk : s.rxcnt.toNat + 1 ≤ 4) :
    SameVisible ((s.writeRxbuf s.rxcnt.toNat b).setRxcnt (s.rxcnt.toNat + 1))
      ((t.writeRxbuf s.rxcnt.toNat b).setRxcnt (s.rxcnt.toNat + 1)) := by
  obtain ⟨hcfg, -, hcrc, hresp, hin, -⟩ := h.writeRxbuf b
  refine ⟨hcfg, rfl, hcrc, hresp, hin, fun i hi => ?_⟩
  have hi' : i < s.rxcnt.toNat + 1 := by
    rw [State.setRxcnt_rxcnt, BitVec.toNat_ofNat] at hi
    omega
  exact h.readRxbuf_writeRxbuf b (Nat.le_of_lt_succ hi') (by omega)

/-- The completed frame is the same: each of its bytes is the new one or a visible one. -/
theorem SameVisible.frame_writeRxbuf (h : SameVisible s t) (b : Byte) (hfull : s.commandLen ≤ s.rxcnt.toNat + 1) :
    (t.writeRxbuf s.rxcnt.toNat b).frame = (s.writeRxbuf s.rxcnt.toNat b).frame := by
  rw [State.frame, State.frame, State.writeRxbuf_commandLen, State.writeRxbuf_commandLen, h.commandLen]
  refine List.map_congr_left fun i hi => ?_
  have hi : i < s.commandLen := List.mem_range.1 hi
  exact h.readRxbuf_writeRxbuf b (by omega) (hi.trans_le s.commandLen_le_four)

end

/-! ### A step from two such states -/

/-- Both outcomes are next states, which differ at most in the bytes of RXBUF not yet received. -/
def NextSameVisible (x y : Host.Outcome State Fault Refusal) : Prop :=
  ∃ s' t', x = .next s' ∧ y = .next t' ∧ SameVisible s' t'

section
variable {s t : State}

theorem exec_rxByte_sameVisible (b : Byte) (h : SameVisible s t) :
    NextSameVisible (exec (.rxByte b) s) (exec (.rxByte b) t) := by
  have hcnt := h.rxcnt
  obtain hmore | hfull := lt_or_ge (s.rxcnt.toNat + 1) s.commandLen
  · have hs := exec_rxByte_append (b := b) hmore
    have ht := exec_rxByte_append (s := t) (b := b) (by rwa [hcnt, h.commandLen])
    rw [hcnt] at ht
    exact ⟨_, _, hs, ht, (h.append b (hmore.le.trans s.commandLen_le_four)).respond _ _ _⟩
  · have hs := exec_rxByte_complete (b := b) hfull
    have ht := exec_rxByte_complete (s := t) (b := b) (by rwa [hcnt, h.commandLen])
    rw [hcnt, h.frame_writeRxbuf b hfull] at ht
    exact ⟨_, _, hs, ht, (h.writeRxbuf b).setRxcnt_zero.reportFrame _⟩

/-- In the table of R32 the operation that reads RXBUF is the one that writes it. -/
theorem mayRead_rxbuf (i : Instr) : mayRead i .rxbuf = mayWrite i .rxbuf := by cases i <;> rfl

/-- An operation without a `w` in the table of R32 reads visible items only. -/
theorem SameVisible.agreeOn_of_mayRead (h : SameVisible s t) {i : Instr} (hw : ∀ it, mayWrite i it = false) (it : Item)
    (hr : mayRead i it = true) : AgreeOn it s t := by
  cases it with
  | rxbuf => exact absurd hr (by simp [mayRead_rxbuf, hw])
  | rxcnt => exact h.rxcnt.symm
  | crcAcc => exact h.crcAcc.symm

theorem exec_sameVisible (i : Instr) (h : SameVisible s t) : NextSameVisible (exec i s) (exec i t) := by
  obtain ⟨b, rfl⟩ | rfl | rfl | ⟨b, rfl⟩ | hw := mayWrite_cases i
  · exact exec_rxByte_sameVisible b h
  · refine ⟨_, _, exec_rxReset s, exec_rxReset t, ?_⟩
    rw [h.rxcnt]
    exact h.setRxcnt_zero.respond _ _ _
  · refine ⟨_, _, exec_crcInit s, exec_crcInit t, ?_⟩
    rw [h.config]
    exact (h.setCrcAcc _).respond _ _ _
  · refine ⟨_, _, exec_crcFeed b s, exec_crcFeed b t, ?_⟩
    rw [h.config, h.crcAcc]
    exact (h.setCrcAcc _).respond _ _ _
  · obtain ⟨st, r, out, hs, ht⟩ := exec_respond_alike_of_readOnly hw h.config.symm (h.agreeOn_of_mayRead hw)
    exact ⟨_, _, hs, ht, h.respond st r out⟩

theorem perform_sameVisible (w : OpWord) (h : SameVisible s t) : NextSameVisible (perform w s) (perform w t) := by
  cases hd : decode w with
  | instr i =>
    rw [perform_instr s hd, perform_instr t hd]
    exact exec_sameVisible i h
  | reserved op => exact ⟨_, _, perform_reserved s hd, perform_reserved t hd, h.respond _ _ _⟩

theorem step_nil (h : s.inputs = []) : step s = .next s.idle := by
  rw [step, State.accept_nil h]

theorem step_sameVisible (h : SameVisible s t) : NextSameVisible (step s) (step t) := by
  cases hs : s.inputs with
  | nil => exact ⟨_, _, step_nil hs, step_nil (h.inputs.trans hs), h.idle⟩
  | cons x rest =>
    have ht := h.inputs.trans hs
    cases x with
    | op w =>
      rw [step_op hs, step_op ht]
      exact perform_sameVisible w (h.setInputs rest)
    | reset =>
      have ht' := step_reset ht
      rw [h.config] at ht'
      exact ⟨_, _, step_reset hs, ht', rfl, rfl, rfl, rfl, rfl, fun _ _ => rfl⟩

/-- Bytes not yet received are never observed: the responses are the same for ever (R34). -/
theorem SameVisible.trace_eq (h : SameVisible s t) (n : Nat) : trace n t = trace n s := by
  induction n generalizing s t with
  | zero => rfl
  | succ n ih =>
    obtain ⟨s', t', hs, ht, h'⟩ := step_sameVisible h
    rw [trace_succ n hs, trace_succ n ht, h'.response, ih h']

end

/-! ### The reset event -/

/-- Settles O11: the step is `step_reset`, and RXCNT = 0 after it makes all of RXBUF unobservable. -/
theorem resetEventLeavesResetValues : Obligations.ResetEventLeavesResetValues := by
  intro s rest hin
  exact ⟨_, step_reset hin, rfl, rfl, rfl, rfl, rfl, fun contents => (sameVisible_setRxbuf rfl contents).trace_eq⟩

end Sys2Proof.Machine
end

section
/-! PROOFS. Decoder and encoder of 30_encoding.md: the bits an operation reads (R51, R56), and their round trip. -/

namespace Sys2Proof

/-! ### The operands an operation takes from A, B and C -/

/-- The operands of `i` are those that R56 reads from A, B and C; `decode_eq_instr_iff` ties this to the decoder and
`and_readMask_eq_encode_iff` to the encoder. -/
def Instr.TakesOperands (i : Instr) (a : Word32) (b : Half) (c : Word48) : Prop :=
  match i with
  | .rxByte x | .crcFeed x | .fxDec x => a.extractLsb' 0 8 = x
  | .rxReset | .crcInit | .crcRead => True
  | .crcCheck d => b = d
  | .fxEnc f => a = f
  | .cmdEnc o => a.extractLsb' 0 16 = o
  | .tlmEnc .. => tlmOperands a b c = i

/-- Once OP is that of `i`, the decoder answers `i` exactly when the operands are its operands. -/
theorem decode_opWord_op_eq_iff (i : Instr) (a : Word32) (b : Half) (c : Word48) :
    decode (opWord i.op a b c) = .instr i ↔ i.TakesOperands a b c := by
  cases i with
  | rxByte x => rw [Instr.op, decode_opWord_rxByte, Decoded.instr.injEq, Instr.rxByte.injEq, Instr.TakesOperands]
  | rxReset => exact iff_of_true (decode_opWord_rxReset a b c) trivial
  | crcInit => exact iff_of_true (decode_opWord_crcInit a b c) trivial
  | crcFeed x => rw [Instr.op, decode_opWord_crcFeed, Decoded.instr.injEq, Instr.crcFeed.injEq, Instr.TakesOperands]
  | crcRead => exact iff_of_true (decode_opWord_crcRead a b c) trivial
  | crcCheck d => rw [Instr.op, decode_opWord_crcCheck, Decoded.instr.injEq, Instr.crcCheck.injEq, Instr.TakesOperands]
  | fxEnc f => rw [Instr.op, decode_opWord_fxEnc, Decoded.instr.injEq, Instr.fxEnc.injEq, Instr.TakesOperands]
  | fxDec x => rw [Instr.op, decode_opWord_fxDec, Decoded.instr.injEq, Instr.fxDec.injEq, Instr.TakesOperands]
  | cmdEnc o => rw [Instr.op, decode_opWord_cmdEnc, Decoded.instr.injEq, Instr.cmdEnc.injEq, Instr.TakesOperands]
  | tlmEnc => rw [Instr.op, decode_opWord_tlmEnc, Decoded.instr.injEq, Instr.TakesOperands]

/-- An operation is decoded from its own OP only. -/
theorem opField_of_decode {w : OpWord} {i : Instr} (h : decode w = .instr i) : opField w = i.op := by
  obtain ⟨j, hj, hop⟩ | ⟨-, hres⟩ := decode_cases w
  · cases h.symm.trans hj
    exact hop.symm
  · cases h.symm.trans hres

theorem decode_eq_instr_iff (i : Instr) (w : OpWord) :
    decode w = .instr i ↔ opField w = i.op ∧ i.TakesOperands (aField w) (bField w) (cField w) := by
  rw [← decode_opWord_op_eq_iff]
  constructor
  · intro h
    have hop := opField_of_decode h
    exact ⟨hop, by rwa [← hop, opWord_fields]⟩
  · rintro ⟨hop, h⟩
    rwa [← hop, opWord_fields] at h

/-! ### Masked words, field by field -/

theorem and_opWord_eq_opWord_iff (w : OpWord) (op op' : Byte) (a a' : Word32) (b b' : Half) (c c' : Word48) :
    w &&& opWord op a b c = opWord op' a' b' c'
      ↔ opField w &&& op = op' ∧ aField w &&& a = a' ∧ bField w &&& b = b' ∧ cField w &&& c = c' := by
  have hop : opField (w &&& opWord op a b c) = opField w &&& op := by
    rw [opField, BitVec.extractLsb'_and, ← opField, ← opField, Laws.EncodeOp.opField_opWord]
  have ha : aField (w &&& opWord op a b c) = aField w &&& a := by
    rw [aField, BitVec.extractLsb'_and, ← aField, ← aField, aField_opWord]
  have hb : bField (w &&& opWord op a b c) = bField w &&& b := by
    rw [bField, BitVec.extractLsb'_and, ← bField, ← bField, bField_opWord]
  have hc : cField (w &&& opWord op a b c) = cField w &&& c := by
    rw [cField, BitVec.extractLsb'_and, ← cField, ← cField, cField_opWord]
  rw [← hop, ← ha, ← hb, ← hc]
  constructor
  · intro h
    rw [h]
    exact ⟨Laws.EncodeOp.opField_opWord .., aField_opWord .., bField_opWord .., cField_opWord ..⟩
  · rintro ⟨rfl, rfl, rfl, rfl⟩
    exact (opWord_fields _).symm

/-- Keeping the low `n` bits leaves exactly the field of those bits. -/
theorem and_lowMask_eq_iff {m n : ℕ} (h : n ≤ m) (v : BitVec m) (x : BitVec n) :
    v &&& (BitVec.allOnes n).setWidth m = x.setWidth m ↔ v.extractLsb' 0 n = x := by
  simp only [BitVec.eq_of_getLsbD_eq_iff, BitVec.getLsbD_and, BitVec.getLsbD_setWidth, BitVec.getLsbD_allOnes,
    BitVec.getLsbD_extractLsb', Nat.zero_add]
  constructor
  · intro hv i hi
    simpa [hi, hi.trans_le h] using hv i (hi.trans_le h)
  · intro hv i hi
    by_cases hin : i < n
    · simpa [hin, hi] using hv i hin
    · simp [hin, BitVec.getLsbD_of_ge x i (not_lt.1 hin)]

theorem and_lowByte_eq_iff (a : Word32) (x : Byte) : a &&& 0x000000FF = x.setWidth 32 ↔ a.extractLsb' 0 8 = x :=
  and_lowMask_eq_iff (by decide) a x

theorem and_lowHalf_eq_iff (a : Word32) (x : Half) : a &&& 0x0000FFFF = x.setWidth 32 ↔ a.extractLsb' 0 16 = x :=
  and_lowMask_eq_iff (by decide) a x

/-- R67 to R69 take A, B and C apart completely: the operands determine them. -/
theorem tlmOperands_eq_iff (a : Word32) (b : Half) (c : Word48) (status : Half) (voltage : Byte) (current : Half)
    (speed magX magY magZ gyroX gyroY gyroZ : Byte) :
    tlmOperands a b c = .tlmEnc status voltage current speed magX magY magZ gyroX gyroY gyroZ
      ↔ a = current ++ status ∧ b = speed ++ voltage ∧ c = gyroZ ++ gyroY ++ gyroX ++ magZ ++ magY ++ magX := by
  constructor
  · intro h
    obtain ⟨rfl, rfl, rfl, rfl, rfl, rfl, rfl, rfl, rfl, rfl⟩ := Instr.tlmEnc.inj h
    refine ⟨?_, ?_, ?_⟩
    · rw [BitVec.extractLsb'_append_extractLsb'_eq_extractLsb' (by rfl)]
      exact BitVec.extractLsb'_eq_self.symm
    · rw [BitVec.extractLsb'_append_extractLsb'_eq_extractLsb' (by rfl)]
      exact BitVec.extractLsb'_eq_self.symm
    · iterate 5 rw [BitVec.extractLsb'_append_extractLsb'_eq_extractLsb' (by rfl)]
      exact BitVec.extractLsb'_eq_self.symm
  · rintro ⟨rfl, rfl, rfl⟩
    exact tlmOperands_append ..

theorem and_readMask_eq_encode_iff (i : Instr) (w : OpWord) :
    w &&& i.readMask = encode i ↔ opField w = i.op ∧ i.TakesOperands (aField w) (bField w) (cField w) := by
  have hop : opField w &&& 0xFF = opField w := BitVec.and_allOnes
  have ha : aField w &&& 0xFFFFFFFF = aField w := BitVec.and_allOnes
  have hb : bField w &&& 0xFFFF = bField w := BitVec.and_allOnes
  have hc : cField w &&& 0xFFFFFFFFFFFF = cField w := BitVec.and_allOnes
  have ha0 : aField w &&& 0 = 0 := BitVec.and_zero
  have hb0 : bField w &&& 0 = 0 := BitVec.and_zero
  have hc0 : cField w &&& 0 = 0 := BitVec.and_zero
  cases i with
  | rxByte x | crcFeed x | fxDec x =>
    rw [Instr.readMask, encode, and_opWord_eq_opWord_iff, hop, hb0, hc0, Instr.a, and_lowByte_eq_iff]
    simp [Instr.b, Instr.c, Instr.TakesOperands]
  | rxReset | crcInit | crcRead =>
    rw [Instr.readMask, encode, and_opWord_eq_opWord_iff, hop, ha0, hb0, hc0]
    simp [Instr.a, Instr.b, Instr.c, Instr.TakesOperands]
  | crcCheck d =>
    rw [Instr.readMask, encode, and_opWord_eq_opWord_iff, hop, ha0, hb, hc0]
    simp [Instr.a, Instr.b, Instr.c, Instr.TakesOperands]
  | fxEnc f =>
    rw [Instr.readMask, encode, and_opWord_eq_opWord_iff, hop, ha, hb0, hc0]
    simp [Instr.a, Instr.b, Instr.c, Instr.TakesOperands]
  | cmdEnc o =>
    rw [Instr.readMask, encode, and_opWord_eq_opWord_iff, hop, hb0, hc0, Instr.a, and_lowHalf_eq_iff]
    simp [Instr.b, Instr.c, Instr.TakesOperands]
  | tlmEnc =>
    rw [Instr.readMask, encode, and_opWord_eq_opWord_iff, hop, ha, hb, hc, Instr.TakesOperands, tlmOperands_eq_iff]
    rfl

/-- Settles O2: both sides say that OP is that of the operation and that A, B and C hold its operands. -/
theorem decodeReadsExactlyListedBits : Obligations.DecodeReadsExactlyListedBits :=
  fun i w => (decode_eq_instr_iff i w).trans (and_readMask_eq_encode_iff i w).symm

theorem extractLsb'_zero_setWidth {m n : ℕ} (h : n ≤ m) (x : BitVec n) : (x.setWidth m).extractLsb' 0 n = x :=
  (BitVec.extractLsb'_setWidth_of_le (by omega)).trans BitVec.extractLsb'_eq_self

/-- The round trip of encoder and decoder. -/
@[simp] theorem decode_encode (i : Instr) : decode (encode i) = .instr i := by
  have hself : i.TakesOperands i.a i.b i.c := by
    cases i with
    | rxByte x | crcFeed x | fxDec x => exact extractLsb'_zero_setWidth (by decide) x
    | rxReset | crcInit | crcRead => trivial
    | crcCheck d => rfl
    | fxEnc f => rfl
    | cmdEnc o => exact extractLsb'_zero_setWidth (by decide) o
    | tlmEnc => exact tlmOperands_append ..
  exact (decode_opWord_op_eq_iff i i.a i.b i.c).2 hself

/-- Settles O4: by O2 the other word decodes to the same operation. -/
theorem unreadOperandBitsAreIgnored : Obligations.UnreadOperandBitsAreIgnored := by
  intro i w v s hw hmask
  have hv : decode v = .instr i := by
    rw [decodeReadsExactlyListedBits, hmask, ← decodeReadsExactlyListedBits]
    exact hw
  rw [Machine.perform_instr s hw, Machine.perform_instr s hv]

/-- Settles O5, word by word. -/
theorem sampleWordsDecode : Obligations.SampleWordsDecode := by
  refine ⟨?_, ?_, ?_, ?_, ?_, ?_, ?_⟩ <;> decide

end Sys2Proof
end

section
/-! PROOFS. The operation words that written lines stand for (30_encoding.md R70 to R75). -/

namespace Sys2Proof.Machine

/-! ### Operands as bit vectors -/

theorem asmByte_toNat {n : ℕ} (h : n < 256) : (asmByte n).toNat = n := by
  rw [asmByte, BitVec.toNat_ofNat]
  exact Nat.mod_eq_of_lt h

theorem asmHalf_toNat {n : ℕ} (h : n < 65536) : (asmHalf n).toNat = n := by
  rw [asmHalf, BitVec.toNat_ofNat]
  exact Nat.mod_eq_of_lt h

theorem setWidth_asmByte {n : ℕ} (h : n < 256) : (asmByte n).setWidth 32 = BitVec.ofNat 32 n := by
  apply BitVec.eq_of_toNat_eq
  rw [BitVec.toNat_setWidth, asmByte_toNat h, BitVec.toNat_ofNat]

theorem setWidth_asmHalf {n : ℕ} (h : n < 65536) : (asmHalf n).setWidth 32 = BitVec.ofNat 32 n := by
  apply BitVec.eq_of_toNat_eq
  rw [BitVec.toNat_setWidth, asmHalf_toNat h, BitVec.toNat_ofNat]

theorem setWidth_byteOf (x : ℤ) : (byteOf x).setWidth 32 = BitVec.ofNat 32 (x % 256).toNat := by
  apply BitVec.eq_of_toNat_eq
  rw [BitVec.toNat_setWidth, byteOf, BitVec.toNat_ofInt, BitVec.toNat_ofNat]
  rfl

/-- Concatenation weighs the high part by the width of the low part. -/
theorem toNat_append_eq_add {m n : ℕ} (hi : BitVec m) (lo : BitVec n) :
    (hi ++ lo).toNat = hi.toNat * 2 ^ n + lo.toNat := by
  rw [BitVec.toNat_append, ← Nat.shiftLeft_add_eq_or_of_lt lo.isLt, Nat.shiftLeft_eq]

/-! ### The word of each operation, from the numbers written in the line -/

theorem encode_crcFeed {n : ℕ} (h : n < 256) : encode (.crcFeed (asmByte n)) = opWord 0x11 (BitVec.ofNat 32 n) 0 0 := by
  rw [← setWidth_asmByte h]
  rfl

theorem encode_rxByte {n : ℕ} (h : n < 256) : encode (.rxByte (asmByte n)) = opWord 0x01 (BitVec.ofNat 32 n) 0 0 := by
  rw [← setWidth_asmByte h]
  rfl

theorem encode_cmdEnc {n : ℕ} (h : n < 65536) : encode (.cmdEnc (asmHalf n)) = opWord 0x30 (BitVec.ofNat 32 n) 0 0 := by
  rw [← setWidth_asmHalf h]
  rfl

theorem encode_fxDec (x : ℤ) : encode (.fxDec (byteOf x)) = opWord 0x21 (BitVec.ofNat 32 (x % 256).toNat) 0 0 := by
  rw [← setWidth_byteOf]
  rfl

/-- Operands A, B and C of TLM_ENC, each field at its power of two (R67 to R69). -/
theorem encode_tlmEnc {s v i sp mx my mz gx gy gz : ℕ} (hs : s < 65536) (hi : i < 65536) (hv : v < 256) (hsp : sp < 256)
    (hmx : mx < 256) (hmy : my < 256) (hmz : mz < 256) (hgx : gx < 256) (hgy : gy < 256) (hgz : gz < 256) :
    encode (.tlmEnc (asmHalf s) (asmByte v) (asmHalf i) (asmByte sp) (asmByte mx) (asmByte my) (asmByte mz)
        (asmByte gx) (asmByte gy) (asmByte gz))
      = opWord 0x31 (BitVec.ofNat 32 (s + 2 ^ 16 * i)) (BitVec.ofNat 16 (v + 2 ^ 8 * sp))
        (BitVec.ofNat 48 (mx + 2 ^ 8 * my + 2 ^ 16 * mz + 2 ^ 24 * gx + 2 ^ 32 * gy + 2 ^ 40 * gz)) := by
  change opWord 0x31 _ _ _ = _
  refine congr (congr (congrArg (opWord 0x31) ?_) ?_) ?_ <;> apply BitVec.eq_of_toNat_eq
  · rw [Instr.a, toNat_append_eq_add, asmHalf_toNat hi, asmHalf_toNat hs, BitVec.toNat_ofNat]
    omega
  · rw [Instr.b, toNat_append_eq_add, asmByte_toNat hsp, asmByte_toNat hv, BitVec.toNat_ofNat]
    omega
  · simp only [Instr.c, toNat_append_eq_add, asmByte_toNat, hmx, hmy, hmz, hgx, hgy, hgz, BitVec.toNat_ofNat]
    omega

/-! ### Lines -/

/-- A line builds the words of its operations when its operands are in range, and none when one is not. -/
theorem assembleWords_eq_ite {l : AsmLine} {P : Prop} [Decidable P] {is : List Instr} {ws : List OpWord}
    (hwf : l.wellFormed = true ↔ P) (hl : assemble l = if l.wellFormed then some is else none)
    (hws : P → is.map encode = ws) : assembleWords l = if P then some ws else none := by
  by_cases hP : P
  · rw [if_pos (hwf.2 hP)] at hl
    rw [assembleWords_of_assemble hl, if_pos hP, hws hP]
  · rw [assembleWords_illFormed (Bool.eq_false_iff.2 (mt hwf.1 hP)), if_neg hP]

/-- The operations of a list of byte operands. -/
theorem map_encode_bytes {f : Byte → Instr} {g : ℕ → OpWord} (hf : ∀ n, n < 256 → encode (f (asmByte n)) = g n)
    {bs : List ℕ} (hbs : ∀ b ∈ bs, b < 256) : ((bs.map asmByte).map f).map encode = bs.map g := by
  rw [List.map_map, List.map_map]
  exact List.map_congr_left fun b hb => hf b (hbs b hb)

theorem all_inU8_iff (bs : List ℕ) : bs.all inU8 = true ↔ ∀ b ∈ bs, b < 256 := by
  simp only [List.all_eq_true, inU8_eq_true]

theorem tlmEnc_wellFormed_iff (s v i sp mx my mz gx gy gz : ℕ) :
    (AsmLine.tlmEnc s v i sp mx my mz gx gy gz).wellFormed = true ↔ s < 65536 ∧ i < 65536 ∧ v < 256 ∧ sp < 256
      ∧ mx < 256 ∧ my < 256 ∧ mz < 256 ∧ gx < 256 ∧ gy < 256 ∧ gz < 256 := by
  simp [AsmLine.wellFormed, and_assoc]

/-- Settles O52, line by line: the range of its operands, and the word of each of its operations. -/
theorem assembledWordsSetOnlyTheirOperands : Obligations.AssembledWordsSetOnlyTheirOperands := by
  refine ⟨rfl, rfl, rfl, fun n => ?crcFeed, fun n => ?rxByte, fun n => ?crcCheck, fun n => ?cmdEnc, fun n => ?fxEnc,
    fun x => ?fxDec, fun s v i sp mx my mz gx gy gz => ?tlmEnc, fun bs => ?crcOf, fun bs d => ?crcVerify,
    fun bs => ?rxFrame, fun n => ?tlmStatus⟩
  case crcFeed => exact assembleWords_eq_ite (inU8_eq_true n) rfl fun h => congrArg ([·]) (encode_crcFeed h)
  case rxByte => exact assembleWords_eq_ite (inU8_eq_true n) rfl fun h => congrArg ([·]) (encode_rxByte h)
  case crcCheck => exact assembleWords_eq_ite (inU16_eq_true n) rfl fun _ => rfl
  case cmdEnc => exact assembleWords_eq_ite (inU16_eq_true n) rfl fun h => congrArg ([·]) (encode_cmdEnc h)
  case fxEnc => exact assembleWords_eq_ite decide_eq_true_iff rfl fun _ => rfl
  case fxDec => exact assembleWords_eq_ite (inFxByte_eq_true x) rfl fun _ => congrArg ([·]) (encode_fxDec x)
  case tlmEnc =>
    refine assembleWords_eq_ite (tlmEnc_wellFormed_iff ..) rfl ?_
    rintro ⟨hs, hi, hv, hsp, hmx, hmy, hmz, hgx, hgy, hgz⟩
    exact congrArg ([·]) (encode_tlmEnc hs hi hv hsp hmx hmy hmz hgx hgy hgz)
  case crcOf =>
    refine assembleWords_eq_ite (all_inU8_iff bs) rfl fun hbs => ?_
    rw [crcOf, List.cons_append, List.map_cons, List.map_append, map_encode_bytes (fun _ => encode_crcFeed) hbs]
    rfl
  case crcVerify =>
    refine assembleWords_eq_ite (P := (∀ b ∈ bs, b < 256) ∧ d < 65536) ?_ rfl fun ⟨hbs, _⟩ => ?_
    · rw [AsmLine.wellFormed, Bool.and_eq_true, all_inU8_iff, inU16_eq_true]
    · rw [crcVerify, List.cons_append, List.map_cons, List.map_append, map_encode_bytes (fun _ => encode_crcFeed) hbs]
      rfl
  case rxFrame =>
    exact assembleWords_eq_ite (all_inU8_iff bs) rfl fun hbs => map_encode_bytes (fun _ => encode_rxByte) hbs
  case tlmStatus =>
    refine assembleWords_eq_ite (inU16_eq_true n) rfl fun h => congrArg ([·]) ?_
    have h0 : 0 < 256 := by decide
    exact (encode_tlmEnc (i := 0) h (by decide) h0 h0 h0 h0 h0 h0 h0 h0).trans (by simp)

end Sys2Proof.Machine
end

section
/-! PROOFS. Steps and runs: what every operation answers and keeps (10_state.md R24, R27, R32, 30_encoding.md R53 to R55),
that no run stops (60_exceptions.md R150), and that inputs take effect in port order (20_memory.md R45). -/

namespace Sys2Proof.Machine

/-! ### One step -/

/-- Settles O7: the word is taken from the port and performed. -/
theorem stepRunsDecodedOperation : Obligations.StepRunsDecodedOperation :=
  fun _ _ _ _ hin hdec => (step_op hin).trans (perform_instr _ hdec)

/-- Settles O8: the step is the idle one. -/
theorem stepWithNothingPresentedIsIdle : Obligations.StepWithNothingPresentedIsIdle :=
  fun _ hin => ⟨_, step_nil hin, ⟨⟨rfl, rfl⟩, ⟨rfl, rfl⟩, rfl⟩, rfl⟩

/-- A step with an encoded operation at the head of the port runs it. -/
theorem step_encode {s : State} {i : Instr} {rest : List Input} (h : s.inputs = .op (encode i) :: rest) :
    step s = exec i { s with inputs := rest } :=
  stepRunsDecodedOperation s _ rest i h (decode_encode i)

/-! ### The values this spec gives at reset and for its parameters -/

/-- Settles O12: the fields of `State.resetWith`. -/
theorem resetStateHoldsResetValues : Obligations.ResetStateHoldsResetValues := ⟨rfl, rfl, rfl, rfl⟩

/-- Settles O13: the fields of `CrcParams.ibm3740`. -/
theorem specCrcParameters : Obligations.SpecCrcParameters := ⟨rfl, rfl, rfl, rfl, rfl⟩

/-- Settles O50: the function that reads a COMMAND_LEN has the two rows 3 and 4. -/
theorem commandLenIsThreeOrFour : Obligations.CommandLenIsThreeOrFour := by
  refine ⟨fun n => ⟨?_, ?_⟩, rfl⟩
  · rintro ⟨c, -, rfl⟩
    cases c with
    | three => exact .inl rfl
    | four => exact .inr rfl
  · rintro (rfl | rfl)
    · exact ⟨.three, rfl, rfl⟩
    · exact ⟨.four, rfl, rfl⟩

/-! ### What an operation answers -/

/-- FX_ENC answers OK or FIX_OVF, whatever the operand. -/
theorem fxClamp_status (m : OvfMode) (n : ℤ) : (fxClamp m n).1 = .ok ∨ (fxClamp m n).1 = .fixOvf := by
  by_cases h : -128 ≤ n ∧ n ≤ 127
  · exact .inl (congrArg Prod.fst (if_pos h))
  · cases m <;> exact .inr (congrArg Prod.fst (if_neg h))

theorem fxEncode_status (t : RoundTies) (m : OvfMode) (a : Word32) :
    (fxEncode t m a).1 = .ok ∨ (fxEncode t m a).1 = .fixOvf := by
  unfold fxEncode
  cases f32Value a with
  | nan => exact .inr rfl
  | inf neg => cases m <;> exact .inr rfl
  | finite scaled => exact fxClamp_status m _

/-- All an operation does before it answers: the parameters stay, and a count below COMMAND_LEN stays below it (R24). Its
status is one the table of R54 lists for it, and its bytes fit OUT (R53). -/
def AnswersAsListed (i : Instr) (s t : State) : Prop :=
  ∃ (u : State) (st : Status) (r : Word32) (out : List Byte), t = u.respond st r out ∧ u.config = s.config
    ∧ (s.rxcnt.toNat < s.commandLen → u.rxcnt.toNat < u.commandLen) ∧ st.code ∈ statusesOf i ∧ out.length ≤ packetLen

/-- An operation that only answers. -/
theorem answersAsListed_respond {i : Instr} (s : State) {st : Status} (r : Word32) {out : List Byte}
    (hst : st.code ∈ statusesOf i) (hout : out.length ≤ packetLen) : AnswersAsListed i s (s.respond st r out) :=
  ⟨s, st, r, out, rfl, rfl, id, hst, hout⟩

/-- RX_BYTE: the new count is the old one plus one, or 0, and OUT is at most the frame (R121). -/
theorem exec_rxByte_answersAsListed (b : Byte) (s : State) :
    ∃ t, exec (.rxByte b) s = .next t ∧ AnswersAsListed (.rxByte b) s t := by
  have hfour := s.commandLen_le_four
  obtain hmore | hfull := lt_or_ge (s.rxcnt.toNat + 1) s.commandLen
  · refine ⟨_, exec_rxByte_append hmore, _, .pending, _, [], rfl, rfl, fun _ => ?_,
      by simp [statusesOf, Status.code], Nat.zero_le _⟩
    rw [State.setRxcnt_rxcnt, BitVec.toNat_ofNat, State.setRxcnt_commandLen, State.writeRxbuf_commandLen]
    omega
  · have hpos := s.two_lt_commandLen
    refine ⟨_, exec_rxByte_complete hfull, _, _, _, _, State.reportFrame_eq_respond _ _, rfl, fun _ => ?_, ?_, ?_⟩
    · exact pos_of_gt hpos
    · split <;> simp [statusesOf, Status.code]
    · rw [State.frame_length]
      exact hfour.trans (by decide)

theorem exec_answersAsListed (i : Instr) (s : State) : ∃ t, exec i s = .next t ∧ AnswersAsListed i s t := by
  cases i with
  | rxByte b => exact exec_rxByte_answersAsListed b s
  | rxReset =>
    refine ⟨_, exec_rxReset s, _, _, _, [], rfl, rfl, fun h => pos_of_gt h, ?_, Nat.zero_le _⟩
    split <;> simp [statusesOf, Status.code]
  | crcInit => exact ⟨_, exec_crcInit s, _, _, _, [], rfl, rfl, id, by simp [statusesOf, Status.code], Nat.zero_le _⟩
  | crcFeed b => exact ⟨_, exec_crcFeed b s, _, _, _, [], rfl, rfl, id, by simp [statusesOf, Status.code], Nat.zero_le _⟩
  | crcRead => exact ⟨_, exec_crcRead s, answersAsListed_respond s _ (by simp [statusesOf, Status.code]) (Nat.zero_le _)⟩
  | crcCheck d =>
    refine ⟨_, exec_crcCheck d s, answersAsListed_respond s _ ?_ (Nat.zero_le _)⟩
    split <;> simp [statusesOf, Status.code]
  | fxEnc f =>
    refine ⟨_, exec_fxEnc f s, answersAsListed_respond s _ ?_ (Nat.zero_le _)⟩
    obtain h | h := fxEncode_status s.config.roundTies s.config.ovfMode f <;> rw [h] <;> simp [statusesOf, Status.code]
  | fxDec x => exact ⟨_, exec_fxDec x s, answersAsListed_respond s _ (by simp [statusesOf, Status.code]) (Nat.zero_le _)⟩
  | cmdEnc o =>
    refine ⟨_, exec_cmdEnc o s, answersAsListed_respond s _ (by simp [statusesOf, Status.code]) ?_⟩
    rw [cmdFrame_length]
    exact s.commandLen_le_four.trans (by decide)
  | tlmEnc => exact ⟨_, exec_tlmEnc .., answersAsListed_respond s _ (by simp [statusesOf, Status.code]) (Nat.le_refl 14)⟩

/-- Settles O46: the status of the answer, in `exec_answersAsListed`. -/
theorem eachOperationReturnsItsStatuses : Obligations.EachOperationReturnsItsStatuses := by
  intro i s
  obtain ⟨t, ht, u, st, r, out, rfl, -, -, hst, -⟩ := exec_answersAsListed i s
  exact ⟨_, _, ht, rfl, hst⟩

/-! ### Legal states -/

theorem State.legal_iff (s : State) :
    s.legal = true ↔ s.rxcnt.toNat < s.commandLen ∧ ∀ resp, s.response = some resp → resp.wellFormed = true := by
  rw [State.legal, Bool.and_eq_true, decide_eq_true_iff]
  cases s.response <;> simp

/-- The reset values are legal for every parameter set. -/
theorem State.resetWith_legal (c : Config) (inputs : List Input) : (State.resetWith c inputs).legal = true :=
  (State.legal_iff _).2 ⟨pos_of_gt (State.resetWith c inputs).two_lt_commandLen, fun _ h => nomatch h⟩

theorem State.respond_legal {s : State} (hcnt : s.rxcnt.toNat < s.commandLen) (st : Status) (r : Word32)
    {out : List Byte} (hout : out.length ≤ packetLen) : (s.respond st r out).legal = true := by
  refine (State.legal_iff _).2 ⟨hcnt, fun resp h => ?_⟩
  cases h
  exact mkResponse_wellFormed st r out hout

theorem perform_legal (w : OpWord) {s : State} (hcnt : s.rxcnt.toNat < s.commandLen) :
    ∃ t, perform w s = .next t ∧ t.legal = true := by
  cases hdec : decode w with
  | instr i =>
    obtain ⟨t, ht, u, st, r, out, rfl, -, hu, -, hout⟩ := exec_answersAsListed i s
    exact ⟨_, (perform_instr s hdec).trans ht, State.respond_legal (hu hcnt) st r hout⟩
  | reserved op => exact ⟨_, perform_reserved s hdec, State.respond_legal hcnt _ _ (Nat.zero_le _)⟩

/-- Settles O43, by what the port shows: nothing, the reset event or an operation word. -/
theorem legalStateIsInvariant : Obligations.LegalStateIsInvariant := by
  intro s t hs hstep
  obtain ⟨hcnt, -⟩ := s.legal_iff.1 hs
  cases hin : s.inputs with
  | nil =>
    cases (step_nil hin).symm.trans hstep
    exact (State.legal_iff _).2 ⟨hcnt, fun _ h => nomatch h⟩
  | cons x rest =>
    cases x with
    | reset =>
      cases (step_reset hin).symm.trans hstep
      exact State.resetWith_legal s.config rest
    | op w =>
      obtain ⟨t', ht', hlegal⟩ := perform_legal w (s := { s with inputs := rest }) hcnt
      cases (step_op hin).symm.trans hstep |>.symm.trans ht'
      exact hlegal

/-- Settles O44: the reset values with the parameters of the spec. -/
theorem resetStateIsLegal : Obligations.ResetStateIsLegal := State.resetWith_legal _ _

/-- Settles O47: the relation is kept by every step, and with it the trace. -/
theorem staleBufferBytesAreUnobservable : Obligations.StaleBufferBytesAreUnobservable :=
  fun _ _ h => ⟨step_sameVisible h, h.trace_eq⟩

/-! ### Two states that agree on what an operation touches -/

theorem AgreeOn.symm {it : Item} {s t : State} (h : AgreeOn it s t) : AgreeOn it t s := by
  cases it <;> exact Eq.symm h

theorem AgreeOn.trans {it : Item} {s t u : State} (h : AgreeOn it s t) (h' : AgreeOn it t u) : AgreeOn it s u := by
  cases it <;> exact Eq.trans h h'

/-- An item on which two states agree stays equal through an operation that reads nothing else than they share: it is
written alike, or by neither (R32). -/
theorem exec_agreeOn (i : Instr) {s₁ s₂ : State} (hcfg : s₁.config = s₂.config)
    (hread : ∀ it, mayRead i it = true → AgreeOn it s₁ s₂) :
    ∃ t₁ t₂, exec i s₁ = .next t₁ ∧ exec i s₂ = .next t₂ ∧ SameSurroundings s₁ t₁ ∧ SameSurroundings s₂ t₂
      ∧ t₁.response = t₂.response ∧ ∀ it, AgreeOn it s₁ s₂ → AgreeOn it t₁ t₂ := by
  obtain ⟨t₁, t₂, e₁, e₂, hresp, hwritten⟩ := exec_depends_on_read i hcfg hread
  obtain ⟨u₁, e₁', hsur₁, hkept₁⟩ := exec_keeps_unwritten i s₁
  obtain ⟨u₂, e₂', hsur₂, hkept₂⟩ := exec_keeps_unwritten i s₂
  cases e₁.symm.trans e₁'
  cases e₂.symm.trans e₂'
  refine ⟨t₁, t₂, e₁, e₂, hsur₁, hsur₂, hresp, fun it h => ?_⟩
  cases hw : mayWrite i it with
  | true => exact hwritten it hw
  | false => exact ((hkept₁ it hw).symm.trans h).trans (hkept₂ it hw)

/-- An operation neither sees nor touches what is still to come. -/
theorem exec_setInputs (i : Instr) (s : State) :
    ∃ t : State, ∀ ys, exec i { s with inputs := ys } = .next { t with inputs := ys } := by
  obtain ⟨t, -, e, -⟩ := exec_agreeOn i (Eq.refl s.config) fun it _ => agreeOn_refl it s
  refine ⟨t, fun ys => ?_⟩
  have hsame (it : Item) : AgreeOn it s { s with inputs := ys } := by cases it <;> rfl
  obtain ⟨t₁, t₂, e₁, e₂, ⟨hcfg₁, -⟩, ⟨hcfg₂, hin⟩, hresp, hitems⟩ :=
    exec_agreeOn i (s₁ := s) (s₂ := { s with inputs := ys }) rfl fun it _ => hsame it
  cases e.symm.trans e₁
  have hbuf : t.rxbuf = t₂.rxbuf := hitems .rxbuf (hsame .rxbuf)
  have hcnt : t.rxcnt = t₂.rxcnt := hitems .rxcnt (hsame .rxcnt)
  have hcrc : t.crcAcc = t₂.crcAcc := hitems .crcAcc (hsame .crcAcc)
  rw [e₂]
  obtain ⟨cfg, buf, cnt, crc, resp, inputs⟩ := t₂
  cases hin
  rw [hcfg₁, hbuf, hcnt, hcrc, hresp, ← hcfg₂]

/-- Settles O42: the answer is the same from the state that differs in the response only. -/
theorem readOnlyOperationsAreIdempotent : Obligations.ReadOnlyOperationsAreIdempotent := by
  intro i s hw
  obtain ⟨st, r, out, e⟩ := exec_eq_respond_of_readOnly hw s
  have hsame := s.respond_sameBlock st r out
  obtain ⟨st', r', out', e', e''⟩ :=
    exec_respond_alike_of_readOnly (s₂ := s.respond st r out) hw rfl fun it _ => hsame.agreeOn it
  have hagain : s.respond st r out = (s.respond st r out).respond st' r' out' :=
    Host.Outcome.next.inj (e.symm.trans e')
  exact ⟨_, e, hsame, by rw [e'', ← hagain]⟩

/-! ### Runs of any length -/

theorem perform_setInputs (w : OpWord) (s : State) :
    ∃ t : State, t.config = s.config ∧ ∀ ys, perform w { s with inputs := ys } = .next { t with inputs := ys } := by
  cases hdec : decode w with
  | instr i =>
    obtain ⟨t, ht⟩ := exec_setInputs i s
    obtain ⟨u, hu, ⟨hcfg, -⟩, -⟩ := exec_keeps_unwritten i s
    cases (ht s.inputs).symm.trans hu
    exact ⟨t, hcfg, fun ys => (perform_instr _ hdec).trans (ht ys)⟩
  | reserved op => exact ⟨s.reportIllegalOp, rfl, fun ys => perform_reserved _ hdec⟩

/-- A step takes one input, keeps the parameters and sees no later input. -/
theorem step_cons (x : Input) (s : State) :
    ∃ t : State, t.config = s.config ∧ ∀ ys, step { s with inputs := x :: ys } = .next { t with inputs := ys } := by
  cases x with
  | op w =>
    obtain ⟨t, hcfg, ht⟩ := perform_setInputs w s
    exact ⟨t, hcfg, fun ys => (step_op rfl).trans (ht ys)⟩
  | reset => exact ⟨State.resetWith s.config [], rfl, fun ys => step_reset rfl⟩

theorem step_keeps_config (s : State) : ∃ t, step s = .next t ∧ t.config = s.config := by
  cases hin : s.inputs with
  | nil => exact ⟨_, step_nil hin, rfl⟩
  | cons x rest =>
    obtain ⟨t, hcfg, ht⟩ := step_cons x s
    have hstep := ht rest
    rw [← hin] at hstep
    exact ⟨_, hstep, hcfg⟩

/-- Settles O45, by induction on the number of steps. -/
theorem parametersNeverChange : Obligations.ParametersNeverChange := by
  intro n
  induction n with
  | zero => exact fun s => ⟨s, rfl, rfl⟩
  | succ n ih =>
    intro s
    obtain ⟨u, hu, hcfg⟩ := step_keeps_config s
    obtain ⟨t, ht, hcfg'⟩ := ih u
    exact ⟨t, (run_succ n hu).trans ht, hcfg'.trans hcfg⟩

/-- Settles O9: a run of any length answers a next state, whose parameters O45 names. -/
theorem blockNeverStops : Obligations.BlockNeverStops := fun n s =>
  let ⟨t, ht, _⟩ := parametersNeverChange n s
  ⟨t, ht⟩

/-- A run over the inputs `xs` is the same whatever waits behind them. -/
theorem run_append_inputs (xs : List Input) (s : State) :
    ∃ (t : State) (l : List (Option Response)), ∀ ys,
      Host.Core.run Sys2Proof.core xs.length { s with inputs := xs ++ ys } = .next { t with inputs := ys }
        ∧ trace xs.length { s with inputs := xs ++ ys } = l := by
  induction xs generalizing s with
  | nil => exact ⟨s, [], fun ys => ⟨rfl, rfl⟩⟩
  | cons x xs ih =>
    obtain ⟨u, -, hu⟩ := step_cons x s
    obtain ⟨t, l, htl⟩ := ih u
    refine ⟨t, u.response :: l, fun ys => ?_⟩
    have hstep := hu (xs ++ ys)
    obtain ⟨hrun, htrace⟩ := htl ys
    exact ⟨(run_succ _ hstep).trans hrun, (trace_succ _ hstep).trans (congrArg _ htrace)⟩

/-- Settles O10: the run over `xs` with nothing behind it and the one with `ys` behind it. -/
theorem laterInputsDoNotMatter : Obligations.LaterInputsDoNotMatter := by
  intro s xs ys
  obtain ⟨t, l, htl⟩ := run_append_inputs xs s
  obtain ⟨hrun, htrace⟩ := htl ys
  obtain ⟨hrun₀, htrace₀⟩ := htl []
  rw [List.append_nil] at hrun₀ htrace₀
  exact ⟨{ t with inputs := [] }, rfl, hrun₀, hrun, htrace.trans htrace₀.symm⟩

/-! ### Independence of the framer and the CRC engine -/

/-- A group `own` of items and the operations `p` that touch it: a run of any program leaves in `own` what the run of its
`p` operations alone leaves there. -/
theorem run_filter_agreeOn {p : Instr → Bool} {own : Item → Prop}
    (hreads : ∀ i it, p i = true → mayRead i it = true → own it)
    (hwrites : ∀ i it, p i = false → own it → mayWrite i it = false) (prog : List Instr) {s s' : State}
    (hcfg : s.config = s'.config) (hown : ∀ it, own it → AgreeOn it s s') :
    ∃ t u, Host.Core.run Sys2Proof.core prog.length { s with inputs := asInputs prog } = .next t
      ∧ Host.Core.run Sys2Proof.core (prog.filter p).length { s' with inputs := asInputs (prog.filter p) } = .next u
      ∧ ∀ it, own it → AgreeOn it t u := by
  induction prog generalizing s s' with
  | nil => exact ⟨_, _, rfl, rfl, fun it h => by cases it <;> exact hown _ h⟩
  | cons i prog ih =>
    obtain ⟨s₁, hs₁⟩ := exec_setInputs i s
    have hstep : step { s with inputs := asInputs (i :: prog) } = .next { s₁ with inputs := asInputs prog } :=
      (step_encode rfl).trans (hs₁ _)
    rw [List.length_cons, run_succ _ hstep]
    cases hp : p i with
    | true =>
      obtain ⟨s₁', hs₁'⟩ := exec_setInputs i s'
      have hstep' : step { s' with inputs := asInputs (i :: prog.filter p) }
          = .next { s₁' with inputs := asInputs (prog.filter p) } := (step_encode rfl).trans (hs₁' _)
      rw [List.filter_cons_of_pos hp, List.length_cons, run_succ _ hstep']
      obtain ⟨u, u', hu, hu', ⟨hucfg, -⟩, ⟨hucfg', -⟩, -, hagree⟩ :=
        exec_agreeOn i hcfg fun it hr => hown it (hreads i it hp hr)
      cases (hs₁ s.inputs).symm.trans hu
      cases (hs₁' s'.inputs).symm.trans hu'
      exact ih (hucfg.trans (hcfg.trans hucfg'.symm)) fun it h => by cases it <;> exact hagree _ (hown _ h)
    | false =>
      rw [List.filter_cons_of_neg (by simp [hp])]
      obtain ⟨u, hu, ⟨hucfg, -⟩, hkept⟩ := exec_keeps_unwritten i s
      cases (hs₁ s.inputs).symm.trans hu
      exact ih (hucfg.trans hcfg) fun it h =>
        (show AgreeOn it s₁ s by cases it <;> exact (hkept _ (hwrites i _ hp h)).symm).trans (hown it h)

/-! The columns of R32 for the two groups of operations: the CRC operations have CRC_ACC to themselves, the RX operations
RXBUF and RXCNT. -/

theorem eq_crcAcc_of_onCrc {i : Instr} {it : Item} (hi : onCrc i = true) (hr : mayRead i it = true) : it = .crcAcc := by
  cases it with
  | crcAcc => rfl
  | rxbuf | rxcnt => cases i <;> cases hr <;> cases hi

theorem mayWrite_crcAcc_of_not_onCrc {i : Instr} (hi : onCrc i = false) : mayWrite i .crcAcc = false := by
  cases i <;> simp_all [onCrc, mayWrite]

theorem ne_crcAcc_of_onFramer {i : Instr} {it : Item} (hi : onFramer i = true) (hr : mayRead i it = true) :
    it ≠ .crcAcc := by
  rintro rfl
  cases i <;> cases hr <;> cases hi

theorem mayWrite_of_not_onFramer {i : Instr} {it : Item} (hi : onFramer i = false) (hit : it ≠ .crcAcc) :
    mayWrite i it = false := by
  cases i <;> simp_all [onFramer, mayWrite]

/-- Settles O48: CRC_ACC belongs to the CRC operations, RXBUF and RXCNT to the RX operations. -/
theorem framerAndCrcEngineAreIndependent : Obligations.FramerAndCrcEngineAreIndependent := by
  intro s prog
  obtain ⟨t, u, ht, hu, hcrc⟩ := run_filter_agreeOn (p := onCrc) (own := (· = .crcAcc))
    (fun _ _ hi hr => eq_crcAcc_of_onCrc hi hr) (fun _ _ hi hit => hit ▸ mayWrite_crcAcc_of_not_onCrc hi)
    prog (Eq.refl s.config) fun it _ => agreeOn_refl it s
  obtain ⟨t', v, ht', hv, hframer⟩ := run_filter_agreeOn (p := onFramer) (own := (· ≠ .crcAcc))
    (fun _ _ hi hr => ne_crcAcc_of_onFramer hi hr) (fun _ _ hi hit => mayWrite_of_not_onFramer hi hit)
    prog (Eq.refl s.config) fun it _ => agreeOn_refl it s
  cases ht.symm.trans ht'
  exact ⟨t, u, v, ht, hu, hv, hcrc .crcAcc rfl, hframer .rxbuf (by decide), hframer .rxcnt (by decide)⟩

end Sys2Proof.Machine
end

section
/-! PROOFS. The arithmetic of the CRC (40_crc.md R80, R88, R89) and the streaming engine on the port (30_encoding.md R72,
R73). -/

namespace Sys2Proof.Machine

open Polynomial

/-- Settles O19, by evaluation. -/
theorem crcCheckValue : Obligations.CrcCheckValue := by
  unfold Obligations.CrcCheckValue
  decide +kernel

/-! ### One byte into the register -/

/-- The byte as it enters the register: reflected under CRC_REFIN (R80). -/
def enteringByte (p : CrcParams) (b : Byte) : Byte := if p.refin then reflect 8 b else b

theorem crcStep_eq (p : CrcParams) (acc : Half) (b : Byte) :
    crcStep p acc b = (crcShift p.poly)^[8] (acc ^^^ (zext16 (enteringByte p b) <<< 8)) := rfl

theorem reflect_xor {n : ℕ} (v w : BitVec n) : reflect n (v ^^^ w) = reflect n v ^^^ reflect n w := by
  apply BitVec.eq_of_getLsbD_eq
  intro i hi
  rw [BitVec.getLsbD_xor, reflect_getLsbD _ hi, reflect_getLsbD _ hi, reflect_getLsbD _ hi, BitVec.getLsbD_xor]

theorem reflect_reflect {n : ℕ} (v : BitVec n) : reflect n (reflect n v) = v := BitVec.reverse_reverse_eq

theorem enteringByte_xor (p : CrcParams) (b c : Byte) :
    enteringByte p (b ^^^ c) = enteringByte p b ^^^ enteringByte p c := by
  unfold enteringByte
  split
  · exact reflect_xor b c
  · rfl

theorem enteringByte_injective (p : CrcParams) : Function.Injective (enteringByte p) := by
  unfold enteringByte
  split
  · exact Function.LeftInverse.injective (g := reflect 8) reflect_reflect
  · exact Function.injective_id

theorem getLsbD_shiftLeft_add {n : ℕ} (v : BitVec n) {i m : ℕ} (h : i + m < n) :
    (v <<< m).getLsbD (i + m) = v.getLsbD i := by
  rw [BitVec.getLsbD_shiftLeft, decide_eq_true h, decide_eq_false (by omega), Nat.add_sub_cancel]
  rfl

/-- The byte goes to the high half of the register. -/
theorem zext16_shiftLeft_injective : Function.Injective fun b : Byte => zext16 b <<< 8 := by
  intro b c h
  apply BitVec.eq_of_getLsbD_eq
  intro i hi
  have hbit (b : Byte) : (zext16 b <<< 8).getLsbD (i + 8) = b.getLsbD i := by
    rw [getLsbD_shiftLeft_add _ (by omega), zext16, BitVec.getLsbD_setWidth, decide_eq_true (by omega), Bool.true_and]
  have hshift : zext16 b <<< 8 = zext16 c <<< 8 := h
  rw [← hbit b, ← hbit c, hshift]

/-! ### Linearity (R88) -/

/-- The shift with its conditional subtraction as one XOR. -/
theorem crcShift_eq_xor (poly acc : Half) : crcShift poly acc = (acc <<< 1) ^^^ (if acc.msb then poly else 0) := by
  unfold crcShift
  split
  · rfl
  · exact BitVec.xor_zero.symm

theorem crcShift_xor (poly x y : Half) : crcShift poly (x ^^^ y) = crcShift poly x ^^^ crcShift poly y := by
  have hpoly : (if (x ^^^ y).msb then poly else 0)
      = (if x.msb then poly else 0) ^^^ (if y.msb then poly else 0) := by
    rw [BitVec.msb_xor]
    cases x.msb <;> cases y.msb <;> simp
  rw [crcShift_eq_xor, crcShift_eq_xor, crcShift_eq_xor, hpoly, BitVec.shiftLeft_xor_distrib]
  ac_rfl

theorem crcShift_iterate_xor (poly : Half) (n : ℕ) (x y : Half) :
    (crcShift poly)^[n] (x ^^^ y) = (crcShift poly)^[n] x ^^^ (crcShift poly)^[n] y :=
  Function.Semiconj₂.iterate (crcShift_xor poly) n x y

/-- Settles O23: the byte enters linearly, and so do the eight shifts. -/
theorem crcStepIsCarryless : Obligations.CrcStepIsCarryless := by
  intro p acc₁ acc₂ b₁ b₂
  have hbyte : zext16 (enteringByte p (b₁ ^^^ b₂)) <<< 8
      = (zext16 (enteringByte p b₁) <<< 8) ^^^ (zext16 (enteringByte p b₂) <<< 8) := by
    rw [enteringByte_xor, zext16, BitVec.setWidth_xor, BitVec.shiftLeft_xor_distrib]
    rfl
  have hsum : acc₁ ^^^ acc₂ ^^^ ((zext16 (enteringByte p b₁) <<< 8) ^^^ (zext16 (enteringByte p b₂) <<< 8))
      = (acc₁ ^^^ (zext16 (enteringByte p b₁) <<< 8)) ^^^ (acc₂ ^^^ (zext16 (enteringByte p b₂) <<< 8)) := by
    ac_rfl
  rw [crcStep_eq, crcStep_eq, crcStep_eq, hbyte, hsum, crcShift_iterate_xor]

/-! ### Injectivity, for a polynomial with a constant term (R89) -/

/-- Bit 0 after a shift is the bit that left. -/
theorem crcShift_getLsbD_zero {poly : Half} (h : poly.getLsbD 0 = true) (acc : Half) :
    (crcShift poly acc).getLsbD 0 = acc.msb := by
  rw [crcShift_eq_xor, BitVec.getLsbD_xor, BitVec.getLsbD_shiftLeft]
  cases acc.msb with
  | false => simp
  | true => simp only [if_true, h, Nat.zero_lt_one, decide_true, Bool.not_true, Bool.and_false, Bool.false_and, Bool.false_xor]

/-- The bit that left is known and the others have moved by one place, so the shift can be undone. -/
theorem crcShift_injective {poly : Half} (h : poly.getLsbD 0 = true) : Function.Injective (crcShift poly) := by
  intro x y hxy
  have hmsb : x.msb = y.msb := by
    rw [← crcShift_getLsbD_zero h x, hxy, crcShift_getLsbD_zero h y]
  have hshift : x <<< 1 = y <<< 1 := by
    rw [crcShift_eq_xor, crcShift_eq_xor, hmsb] at hxy
    exact (BitVec.xor_left_inj _).1 hxy
  apply BitVec.eq_of_getLsbD_eq
  intro i hi
  obtain rfl | hlt := Nat.eq_or_lt_of_le (Nat.le_of_lt_succ hi)
  · rwa [BitVec.msb_eq_getLsbD_last, BitVec.msb_eq_getLsbD_last] at hmsb
  · rw [← getLsbD_shiftLeft_add x (m := 1) (by omega), hshift, getLsbD_shiftLeft_add y (by omega)]

section
variable {p : CrcParams} (h : p.poly.getLsbD 0 = true)
include h

/-- A difference in the register survives every byte. -/
theorem crcStep_register_injective (b : Byte) : Function.Injective fun acc => crcStep p acc b :=
  fun _ _ hxy => (BitVec.xor_left_inj _).1 ((crcShift_injective h).iterate 8 hxy)

/-- Different bytes give different registers. -/
theorem crcStep_byte_injective (acc : Half) : Function.Injective (crcStep p acc) :=
  fun _ _ hxy => enteringByte_injective p <| zext16_shiftLeft_injective <|
    (BitVec.xor_right_inj _).1 ((crcShift_injective h).iterate 8 hxy)

theorem foldl_crcStep_injective (bs : List Byte) : Function.Injective fun acc => bs.foldl (crcStep p) acc := by
  induction bs with
  | nil => exact Function.injective_id
  | cons b bs ih => exact ih.comp (crcStep_register_injective h b)

/-- Changing one byte changes the register. -/
theorem crcRegister_set_ne {bs : List Byte} {i : ℕ} (hi : i < bs.length) {b : Byte} (hb : b ≠ bs[i]) :
    crcRegister p (bs.set i b) ≠ crcRegister p bs := by
  have hset : bs.set i b = bs.take i ++ b :: bs.drop (i + 1) := by
    rw [List.set_eq_take_append_cons_drop, if_pos hi]
  have hself : bs = bs.take i ++ bs[i] :: bs.drop (i + 1) := by
    rw [← List.drop_eq_getElem_cons hi, List.take_append_drop]
  intro heq
  rw [hset] at heq
  conv_rhs at heq => rw [hself]
  simp only [crcRegister, List.foldl_append, List.foldl_cons] at heq
  exact hb (crcStep_byte_injective h _ (foldl_crcStep_injective h _ heq))

end

theorem crcFinal_injective (p : CrcParams) : Function.Injective (crcFinal p) := by
  intro x y hxy
  by_cases hout : p.refout = true
  · rw [crcFinal_reflected hout, crcFinal_reflected hout, BitVec.xor_left_inj] at hxy
    rw [← reflect_reflect x, hxy, reflect_reflect]
  · rw [crcFinal_unreflected hout, crcFinal_unreflected hout, BitVec.xor_left_inj] at hxy
    exact hxy

/-- Flipping a bit of a byte changes it. -/
theorem xor_bit_ne (b : Byte) {j : ℕ} (hj : j < 8) : b ^^^ (1#8 <<< j) ≠ b := by
  intro h
  have hbit := congrArg (BitVec.getLsbD · j) h
  simp [hj] at hbit

/-- Settles O22: the byte changes, hence the register, hence its output transform. -/
theorem singleBitChangeChangesCrc : Obligations.SingleBitChangeChangesCrc := by
  intro p bs i j hpoly hi hj heq
  have hbyte : bs.getD i 0 ^^^ (1#8 <<< j) ≠ bs[i] := by
    rw [List.getD_eq_getElem _ _ hi]
    exact xor_bit_ne _ hj
  exact crcRegister_set_ne hpoly hi hbyte (crcFinal_injective p heq)

/-! ### Bits as polynomials over GF(2) -/

/-- A bit as a coefficient. -/
def gfBit (b : Bool) : ZMod 2 := if b then 1 else 0

theorem gfBit_xor (a b : Bool) : gfBit (a ^^ b) = gfBit a + gfBit b := by
  cases a <;> cases b <;> decide

theorem gfPoly_nil : gfPoly [] = 0 := rfl

theorem gfPoly_concat (l : List Bool) (b : Bool) : gfPoly (l ++ [b]) = gfPoly l * X + C (gfBit b) := by
  rw [gfPoly, List.foldl_append, ← gfPoly]
  cases b <;> simp [gfBit]

theorem gfPoly_append (l m : List Bool) : gfPoly (l ++ m) = gfPoly l * X ^ m.length + gfPoly m := by
  induction m using List.reverseRecOn with
  | nil => simp [gfPoly_nil]
  | append_singleton m b ih =>
    rw [← List.append_assoc, gfPoly_concat, ih, gfPoly_concat, List.length_append, List.length_singleton]
    ring

/-- Coefficient `k` is the bit `k` places from the last one. -/
theorem coeff_gfPoly (l : List Bool) (k : ℕ) : (gfPoly l).coeff k = gfBit (l.reverse[k]?.getD false) := by
  induction l using List.reverseRecOn generalizing k with
  | nil => rfl
  | append_singleton l b ih =>
    rw [gfPoly_concat, List.reverse_append, List.reverse_singleton, List.singleton_append]
    cases k with
    | zero => simp
    | succ k => simp [coeff_C_succ, ih]

theorem reverse_msbFirst {n : ℕ} (v : BitVec n) : (msbFirst v).reverse = (List.range n).map v.getLsbD := by
  apply List.ext_getElem
  · simp [msbFirst]
  · intro i h₁ h₂
    have hi : i < n := by simpa using h₂
    simp [msbFirst, BitVec.getMsbD, show n - 1 - i < n by omega, show n - 1 - (n - 1 - i) = i by omega]

/-- The polynomial of a bit vector, written most significant bit first, has bit `k` as its coefficient `k`. -/
theorem coeff_gfPoly_msbFirst {n : ℕ} (v : BitVec n) (k : ℕ) : (gfPoly (msbFirst v)).coeff k = gfBit (v.getLsbD k) := by
  rw [coeff_gfPoly, reverse_msbFirst]
  obtain hk | hk := lt_or_ge k n
  · simp [hk]
  · simp [hk]

theorem gfPoly_xor {n : ℕ} (v w : BitVec n) :
    gfPoly (msbFirst (v ^^^ w)) = gfPoly (msbFirst v) + gfPoly (msbFirst w) := by
  ext k
  rw [coeff_add, coeff_gfPoly_msbFirst, coeff_gfPoly_msbFirst, coeff_gfPoly_msbFirst, BitVec.getLsbD_xor, gfBit_xor]

/-- Shifting is multiplying by x, apart from the bit that leaves. -/
theorem gfPoly_mul_X (acc : Half) :
    gfPoly (msbFirst acc) * X = gfPoly (msbFirst (acc <<< 1)) + C (gfBit acc.msb) * X ^ 16 := by
  ext k
  cases k with
  | zero =>
    rw [mul_coeff_zero, coeff_X_zero, mul_zero, coeff_add, coeff_C_mul, coeff_X_pow, coeff_gfPoly_msbFirst]
    simp [gfBit]
  | succ k =>
    rw [coeff_mul_X, coeff_add, coeff_C_mul, coeff_X_pow, coeff_gfPoly_msbFirst, coeff_gfPoly_msbFirst]
    obtain hk | rfl | hk := lt_trichotomy k 15
    · rw [getLsbD_shiftLeft_add acc (by omega), if_neg (by omega), mul_zero, add_zero]
    · simp [gfBit, BitVec.msb_eq_getLsbD_last]
    · simp [gfBit, BitVec.getLsbD_of_ge acc k (by omega), show ¬ k + 1 < 16 by omega, show k ≠ 15 by omega]

theorem gfPoly_zext16_shiftLeft (b : Byte) : gfPoly (msbFirst (zext16 b <<< 8)) = gfPoly (msbFirst b) * X ^ 8 := by
  ext k
  rw [coeff_mul_X_pow', coeff_gfPoly_msbFirst, zext16, BitVec.getLsbD_shiftLeft, BitVec.getLsbD_setWidth]
  obtain hk | hk := lt_or_ge k 8
  · simp [hk, show ¬ 8 ≤ k by omega, gfBit]
  · rw [if_pos hk, coeff_gfPoly_msbFirst]
    obtain hk' | hk' := lt_or_ge k 16
    · simp [hk', show ¬ k < 8 by omega, show k - 8 < 16 by omega]
    · simp [show ¬ k < 16 by omega, BitVec.getLsbD_of_ge b (k - 8) (by omega)]

/-! ### The register modulo the generator -/

/-- The generator polynomial, its x^16 term implied by CRC_POLY (00_scope.md R8). -/
noncomputable def crcGenerator (p : CrcParams) : (ZMod 2)[X] := X ^ 16 + gfPoly (msbFirst p.poly)

/-- A polynomial modulo the generator of `p`. -/
noncomputable abbrev crcMod (p : CrcParams) : (ZMod 2)[X] →+* AdjoinRoot (crcGenerator p) := AdjoinRoot.mk (crcGenerator p)

/-- A shift with its conditional subtraction is multiplication by x modulo the generator. -/
theorem crcMod_crcShift (p : CrcParams) (acc : Half) :
    crcMod p (gfPoly (msbFirst (crcShift p.poly acc))) = crcMod p (gfPoly (msbFirst acc) * X) := by
  rw [crcMod, AdjoinRoot.mk_eq_mk, crcShift_eq_xor, gfPoly_xor, gfPoly_mul_X]
  cases acc.msb with
  | false =>
    have hzero : gfPoly (msbFirst (0 : Half)) = 0 := by
      ext k
      rw [coeff_gfPoly_msbFirst, BitVec.ofNat_eq_ofNat, BitVec.getLsbD_zero]
      rfl
    rw [if_neg Bool.false_ne_true, hzero, add_zero, gfBit, if_neg Bool.false_ne_true, C_0, zero_mul, add_zero, sub_self]
    exact dvd_zero _
  | true =>
    have hgen : gfPoly (msbFirst (acc <<< 1)) + gfPoly (msbFirst p.poly)
        - (gfPoly (msbFirst (acc <<< 1)) + C (gfBit true) * X ^ 16) = crcGenerator p := by
      rw [add_sub_add_left_eq_sub, CharTwo.sub_eq_add, add_comm, gfBit, if_pos rfl, C_1, one_mul, crcGenerator]
    exact dvd_of_eq hgen.symm

theorem crcMod_crcShift_iterate (p : CrcParams) (n : ℕ) (acc : Half) :
    crcMod p (gfPoly (msbFirst ((crcShift p.poly)^[n] acc))) = crcMod p (gfPoly (msbFirst acc) * X ^ n) := by
  induction n with
  | zero => simp
  | succ n ih => rw [Function.iterate_succ_apply', crcMod_crcShift, map_mul, ih, ← map_mul, mul_assoc, ← pow_succ]

theorem crcMod_crcStep (p : CrcParams) (acc : Half) (b : Byte) :
    crcMod p (gfPoly (msbFirst (crcStep p acc b)))
      = crcMod p (gfPoly (msbFirst acc) * X ^ 8 + gfPoly (msbFirst (enteringByte p b)) * X ^ 16) := by
  rw [crcStep_eq, crcMod_crcShift_iterate, gfPoly_xor, gfPoly_zext16_shiftLeft]
  ring_nf

/-- The bits of a byte in the order CRC_REFIN sets are those of the byte as it enters. -/
theorem crcBits_concat (p : CrcParams) (bs : List Byte) (b : Byte) :
    crcBits p (bs ++ [b]) = crcBits p bs ++ msbFirst (enteringByte p b) := by
  have hbyte : (if p.refin then (msbFirst b).reverse else msbFirst b) = msbFirst (enteringByte p b) := by
    unfold enteringByte
    split
    · rw [reverse_msbFirst, msbFirst]
      exact List.map_congr_left fun i _ => (BitVec.getMsbD_reverse).symm
    · rfl
  simp [crcBits, hbyte]

theorem crcMod_crcRegister (p : CrcParams) (bs : List Byte) :
    crcMod p (gfPoly (msbFirst (crcRegister p bs)))
      = crcMod p (gfPoly (msbFirst p.init) * X ^ (8 * bs.length) + gfPoly (crcBits p bs) * X ^ 16) := by
  induction bs using List.reverseRecOn with
  | nil => simp [crcBits, gfPoly_nil]
  | append_singleton bs b ih =>
    have hlen : (msbFirst (enteringByte p b)).length = 8 := by simp [msbFirst]
    rw [crcRegister_concat, crcMod_crcStep, map_add, map_mul, ih, crcBits_concat, gfPoly_append, hlen,
      List.length_append, List.length_singleton, ← map_mul, ← map_add]
    ring_nf

/-- Settles O24: congruence is equality modulo the generator. -/
theorem crcRegisterIsPolynomialRemainder : Obligations.CrcRegisterIsPolynomialRemainder :=
  fun p bs => AdjoinRoot.mk_eq_mk.1 (crcMod_crcRegister p bs)

/-! ### The streaming engine on the port (R72, R73) -/

/-- Feeding bytes takes them into the register and leaves the framer as it was. -/
theorem run_crcFeed {s : State} (bs : List Byte) {rest : List Input}
    (h : s.inputs = asInputs (bs.map .crcFeed) ++ rest) :
    ∃ t, Host.Core.run Sys2Proof.core bs.length s = .next t ∧ t.inputs = rest ∧ t.config = s.config ∧ SameFramer s t
      ∧ t.crcAcc = bs.foldl (crcStep s.config.crc) s.crcAcc := by
  induction bs generalizing s with
  | nil => exact ⟨s, rfl, h, rfl, ⟨rfl, rfl⟩, rfl⟩
  | cons b bs ih =>
    have hstep := (step_encode h).trans (exec_crcFeed b _)
    rw [List.length_cons, run_succ _ hstep]
    exact ih rfl

/-- After CRC_INIT and the bytes, the register is that of the bytes, whatever went before. -/
theorem run_crcInit_crcFeed {s : State} (bs : List Byte) {rest : List Input}
    (h : s.inputs = asInputs (.crcInit :: bs.map .crcFeed) ++ rest) :
    ∃ t, Host.Core.run Sys2Proof.core (bs.length + 1) s = .next t ∧ t.inputs = rest ∧ t.config = s.config
      ∧ SameFramer s t ∧ t.crcAcc = crcRegister s.config.crc bs := by
  have hstep := (step_encode h).trans (exec_crcInit _)
  rw [run_succ _ hstep]
  exact run_crcFeed bs rfl

/-- A last operation that only answers, after CRC_INIT and the bytes. -/
theorem run_crcInit_crcFeed_then {s : State} (bs : List Byte) {last : Instr} {rest : List Input}
    (h : s.inputs = asInputs (.crcInit :: bs.map .crcFeed ++ [last]) ++ rest) {st : Status} {r : Word32}
    (hlast : ∀ t : State, t.config = s.config → t.crcAcc = crcRegister s.config.crc bs →
      exec last t = .next (t.respond st r)) :
    ∃ t, Host.Core.run Sys2Proof.core (bs.length + 2) s = .next t ∧ t.inputs = rest ∧ SameFramer s t
      ∧ t.Answers st.code r [] := by
  rw [asInputs_append, List.append_assoc] at h
  obtain ⟨t, ht, hin, hcfg, hframer, hacc⟩ := run_crcInit_crcFeed bs h
  have hstep := (step_encode hin).trans (hlast { t with inputs := rest } hcfg hacc)
  exact ⟨_, (run_add _ 1 ht).trans (run_succ 0 hstep), rfl, hframer, State.respond_answers_nil _ st r⟩

/-- Settles O20: CRC_READ on the register of the bytes. -/
theorem streamingCrcIsCrc16 : Obligations.StreamingCrcIsCrc16 := by
  intro s bs rest
  refine run_crcInit_crcFeed_then (s := { s with inputs := asInputs (crcOf bs) ++ rest }) bs (last := .crcRead)
    (st := .ok) rfl fun t hcfg hacc => ?_
  rw [exec_crcRead, hcfg, hacc]
  rfl

/-- Settles O21: CRC_CHECK compares with the CRC of the register of the bytes. -/
theorem crcVerifyAcceptsExactlyCrc16 : Obligations.CrcVerifyAcceptsExactlyCrc16 := by
  intro s bs d rest
  have hlast (t : State) (hcfg : t.config = s.config) (hacc : t.crcAcc = crcRegister s.config.crc bs) :
      exec (.crcCheck d) t = .next (t.respond (if d = crc16 s.config.crc bs then .ok else .crcMismatch)
        ((crc16 s.config.crc bs).setWidth 32)) := by
    rw [exec_crcCheck, hcfg, hacc, ← crc16_eq_crcFinal_crcRegister]
    simp only [eq_comm]
  obtain ⟨t, hrun, hin, hframer, hans⟩ := run_crcInit_crcFeed_then
    (s := { s with inputs := asInputs (crcVerify bs d) ++ rest }) bs (last := .crcCheck d) rfl hlast
  refine ⟨t, hrun, hin, hframer, ?_⟩
  rw [apply_ite Status.code] at hans
  exact hans

end Sys2Proof.Machine
end

section
/-! PROOFS. The laws of the fixed-point codec (41_fixed_point.md R101, R103, R109 to R111): what `round_T` does to order and
distance, and with it the range, the round trips and the monotonicity of FX_ENC. -/

namespace Sys2Proof.Machine

/-! ### Rounding and distance (R101) -/

section
variable {t : RoundTies} {q : ℚ} {n : ℤ}

/-- AWAY takes the integer at a distance of at most one half, below a tie only for a negative number. -/
theorem RoundsTo.away_bounds (h : RoundsTo .away q n) :
    (0 ≤ q ∧ -(1 / 2) ≤ q - n ∧ q - n < 1 / 2) ∨ (q < 0 ∧ -(1 / 2) < q - n ∧ q - n ≤ 1 / 2) := by
  have hlo := Int.floor_le (|q| + 1 / 2)
  have hhi := Int.lt_floor_add_one (|q| + 1 / 2)
  rw [RoundsTo] at h
  obtain hq | hq := lt_or_ge q 0
  · rw [if_pos hq, neg_one_mul] at h
    rw [← neg_eq_iff_eq_neg.2 h, abs_of_neg hq, Int.cast_neg] at hlo hhi
    exact .inr ⟨hq, by linarith, by linarith⟩
  · rw [if_neg hq.not_gt, one_mul] at h
    rw [← h, abs_of_nonneg hq] at hlo hhi
    exact .inl ⟨hq, by linarith, by linarith⟩

theorem RoundsTo.abs_sub_le_half (h : RoundsTo t q n) : |q - n| ≤ 1 / 2 := by
  cases t with
  | away =>
    rw [abs_le]
    obtain ⟨-, hlo, hhi⟩ | ⟨-, hlo, hhi⟩ := h.away_bounds
    · exact ⟨hlo, hhi.le⟩
    · exact ⟨hlo.le, hhi⟩
  | even => exact And.left h

/-- An integer is rounded to itself. -/
theorem RoundsTo.eq_of_intCast {k : ℤ} (h : RoundsTo t (k : ℚ) n) : n = k := by
  obtain ⟨hlo, hhi⟩ := abs_le.1 h.abs_sub_le_half
  have hlt : (n : ℚ) < k + 1 := by linarith
  have hgt : (k : ℚ) < n + 1 := by linarith
  norm_cast at hlt hgt
  omega

/-- Rounding is at the greatest distance exactly halfway between two integers. -/
theorem RoundsTo.abs_sub_eq_half_iff (h : RoundsTo t q n) : |q - n| = 1 / 2 ↔ ∃ k : ℤ, q = k + 1 / 2 := by
  constructor
  · intro hq
    obtain hq | hq := (abs_eq (by norm_num)).1 hq
    · exact ⟨n, by linarith⟩
    · exact ⟨n - 1, by push_cast; linarith⟩
  · rintro ⟨k, rfl⟩
    obtain ⟨hlo, hhi⟩ := abs_le.1 h.abs_sub_le_half
    have hle : (k : ℚ) ≤ n := by linarith
    have hge : (n : ℚ) ≤ k + 1 := by linarith
    norm_cast at hle hge
    obtain rfl | rfl : n = k ∨ n = k + 1 := by omega
    · norm_num
    · push_cast
      norm_num

/-- EVEN does not take both neighbours of a tie. -/
theorem RoundsTo.even_not_lt {m : ℤ} (hm : RoundsTo .even q m) (hn : RoundsTo .even q n) : ¬ m < n := by
  intro hlt
  obtain ⟨-, hmq⟩ := abs_le.1 hm.abs_sub_le_half
  obtain ⟨hnq, -⟩ := abs_le.1 hn.abs_sub_le_half
  obtain ⟨-, hmeven⟩ := hm
  obtain ⟨-, hneven⟩ := hn
  have hle : (n : ℚ) ≤ m + 1 := by linarith
  norm_cast at hle
  obtain rfl : n = m + 1 := by omega
  push_cast at hnq hneven
  have hq : q = m + 1 / 2 := by linarith
  have hmtie : |q - m| = 1 / 2 := by rw [hq]; norm_num
  have hntie : |q - (m + 1)| = 1 / 2 := by rw [hq]; norm_num
  obtain ⟨i, hi⟩ := hmeven hmtie
  obtain ⟨j, hj⟩ := hneven hntie
  omega

/-- `round_T` has one value. -/
theorem RoundsTo.unique {m : ℤ} (hm : RoundsTo t q m) (hn : RoundsTo t q n) : m = n := by
  cases t with
  | away => exact Eq.trans hm (Eq.symm hn)
  | even => exact le_antisymm (not_lt.1 (hn.even_not_lt hm)) (not_lt.1 (hm.even_not_lt hn))

theorem RoundsTo.mono {p : ℚ} {m : ℤ} (hpq : p ≤ q) (hm : RoundsTo t p m) (hn : RoundsTo t q n) : m ≤ n := by
  by_contra hlt
  have hsucc : (n : ℚ) + 1 ≤ m := by exact_mod_cast not_le.1 hlt
  obtain ⟨hplo, -⟩ := abs_le.1 hm.abs_sub_le_half
  obtain ⟨-, hqhi⟩ := abs_le.1 hn.abs_sub_le_half
  obtain rfl : p = q := by linarith
  exact hlt (hm.unique hn).le

/-! ### The bounds of the range (R103) -/

theorem RoundsTo.le_max_iff (h : RoundsTo t q n) : n ≤ 127 ↔ q < 255 / 2 := by
  obtain ⟨hlo, hhi⟩ := abs_le.1 h.abs_sub_le_half
  constructor
  · intro hn
    have hn' : (n : ℚ) ≤ 127 := by exact_mod_cast hn
    cases t with
    | away => obtain ⟨-, -, hlt⟩ | ⟨hneg, -, -⟩ := h.away_bounds <;> linarith
    | even =>
      obtain ⟨-, heven⟩ := h
      by_contra hq
      have h127 : (127 : ℚ) ≤ n := by linarith
      obtain rfl : n = 127 := le_antisymm hn (by exact_mod_cast h127)
      have htie : |q - (127 : ℤ)| = 1 / 2 := by
        rw [abs_of_nonneg] <;> push_cast at * <;> linarith
      exact absurd (heven htie) (by decide)
  · intro hq
    have hlt : (n : ℚ) < 128 := by linarith
    exact Int.lt_add_one_iff.1 (by exact_mod_cast hlt)

/-- The lower bound is in range for EVEN only: it is a tie between -129 and -128. -/
theorem RoundsTo.min_le_iff (h : RoundsTo t q n) :
    -128 ≤ n ↔ match t with | .away => -(257 / 2) < q | .even => -(257 / 2) ≤ q := by
  obtain ⟨hlo, hhi⟩ := abs_le.1 h.abs_sub_le_half
  cases t with
  | away =>
    constructor
    · intro hn
      have hn' : (-128 : ℚ) ≤ n := by exact_mod_cast hn
      obtain ⟨hpos, -, -⟩ | ⟨-, hlt, -⟩ := h.away_bounds <;> simp only <;> linarith
    · intro hq
      have hlt : (-129 : ℚ) < n := by simp only at hq; linarith
      exact Int.add_one_le_iff.2 (by exact_mod_cast hlt)
  | even =>
    obtain ⟨-, heven⟩ := h
    constructor
    · intro hn
      have hn' : (-128 : ℚ) ≤ n := by exact_mod_cast hn
      simp only
      linarith
    · intro hq
      simp only at hq
      by_contra hn
      have hn' : n ≤ -129 := by omega
      have hle : (n : ℚ) ≤ -129 := by exact_mod_cast hn'
      have h129 : (-129 : ℚ) ≤ n := by linarith
      obtain rfl : n = -129 := le_antisymm hn' (by exact_mod_cast h129)
      have htie : |q - (-129 : ℤ)| = 1 / 2 := by
        rw [abs_of_nonneg] <;> push_cast at * <;> linarith
      exact absurd (heven htie) (by decide)

/-- A scaled input is in range exactly when it is rounded to a signed byte. -/
theorem RoundsTo.inRange_iff (h : RoundsTo t (q * 8) n) : -128 ≤ n ∧ n ≤ 127 ↔ FxInRange t q := by
  rw [h.min_le_iff, h.le_max_iff]
  cases t with
  | away => constructor <;> rintro ⟨hlo, hhi⟩ <;> exact ⟨by linarith, by linarith⟩
  | even => constructor <;> rintro ⟨hlo, hhi⟩ <;> exact ⟨by linarith, by linarith⟩

end

/-- Settles O26: the machine's value is one of `round_T`, and `round_T` has no other. -/
theorem fxRoundIsRoundT : Obligations.FxRoundIsRoundT := by
  intro t scaled n
  have hround : RoundsTo t ((scaled : ℚ) / 2 ^ 146) (fxRound t scaled) := by
    have h := roundsTo_roundQuotient t scaled (den := 2 ^ 146) (by positivity)
    push_cast at h
    exact h
  constructor
  · exact fun h => h.unique hround
  · rintro rfl
    exact hround

/-! ### FX_ENC of a finite input -/

theorem f32Exp_ne_of_real {a : Word32} {q : ℚ} (h : f32Real a = some q) : f32Exp a ≠ 255 := by
  intro he
  rw [f32Real_eq, if_pos he] at h
  cases h

/-- A finite input is rounded, then brought into the range of a byte (R106). -/
theorem fxEncode_of_real (t : RoundTies) (m : OvfMode) {a : Word32} {q : ℚ} (h : f32Real a = some q) :
    ∃ n, RoundsTo t (q * 8) n ∧ fxEncode t m a = fxClamp m n := by
  obtain ⟨k, hval, hreal⟩ := f32Value_finite (f32Exp_ne_of_real h)
  cases h.symm.trans hreal
  exact ⟨_, roundsTo_fxRound t k, fxEncode_of_finite t m hval⟩

theorem fxClamp_ok_iff (m : OvfMode) (n : ℤ) : (fxClamp m n).1 = .ok ↔ -128 ≤ n ∧ n ≤ 127 := by
  constructor
  · intro h
    by_contra hn
    cases m with
    | sat => cases (congrArg Prod.fst (if_neg hn)).symm.trans h
    | wrap => cases (congrArg Prod.fst (fxClamp_outside_wrap hn)).symm.trans h
  · rintro ⟨hlo, hhi⟩
    rw [fxClamp_inRange m hlo hhi]

/-- Settles O27: OK exactly when the rounded value is a signed byte, and FIX_OVF is the only other status. -/
theorem fxEncRangeIsExact : Obligations.FxEncRangeIsExact := by
  intro t m a q h
  obtain ⟨n, hround, henc⟩ := fxEncode_of_real t m h
  have hok : (fxEncode t m a).1 = .ok ↔ FxInRange t q := by
    rw [henc, fxClamp_ok_iff, hround.inRange_iff]
  refine ⟨hok, ?_⟩
  rw [← hok]
  obtain hst | hst := fxEncode_status t m a <;> simp [hst]

/-- The byte of an integer in range represents an eighth of it. -/
theorem fixReal_ofInt {n : ℤ} (hlo : -128 ≤ n) (hhi : n ≤ 127) : fixReal (BitVec.ofInt 8 n) = n / 8 := by
  rw [fixReal, BitVec.toInt_ofInt_eq_self (by decide) (by omega) (by omega)]

/-- Settles O29: the input is in range, and the distance of the decoded byte is an eighth of that of the rounding. -/
theorem fxRoundTripWithinSixteenth : Obligations.FxRoundTripWithinSixteenth := by
  intro s a q h hlo hhi
  obtain ⟨n, hround, henc⟩ := fxEncode_of_real s.config.roundTies s.config.ovfMode h
  have hrange : FxInRange s.config.roundTies q := by
    cases s.config.roundTies <;> exact ⟨by linarith, by linarith⟩
  obtain ⟨hnlo, hnhi⟩ := hround.inRange_iff.2 hrange
  rw [fxClamp_inRange _ hnlo hnhi] at henc
  have hdist : |(n : ℚ) / 8 - q| = |q * 8 - n| / 8 := by
    rw [abs_sub_comm, ← abs_of_pos (show (0 : ℚ) < 8 by norm_num), ← abs_div, abs_of_pos (show (0 : ℚ) < 8 by norm_num)]
    congr 1
    ring
  have htie : |q * 8 - n| / 8 = 1 / 16 ↔ |q * 8 - n| = 1 / 2 := by
    constructor <;> intro h <;> linarith
  have hodd (k : ℤ) : q * 8 = k + 1 / 2 ↔ q = (2 * k + 1) / 16 := by
    constructor <;> intro h <;> linarith
  refine ⟨_, _, _, exec_fxEnc a s, s.respond_answers_of_eq henc, f32Real_fxDecode _, ?_, ?_⟩
  · rw [fixReal_ofInt hnlo hnhi, hdist]
    linarith [hround.abs_sub_le_half]
  · simp only [fixReal_ofInt hnlo hnhi, hdist, htie, hround.abs_sub_eq_half_iff, hodd]

/-- Settles O30: eight times the decoded value is the byte as an integer, which rounding keeps. -/
theorem fxDecodeThenEncode : Obligations.FxDecodeThenEncode := by
  intro s x
  obtain ⟨n, hround, henc⟩ := fxEncode_of_real s.config.roundTies s.config.ovfMode (f32Real_fxDecode x)
  rw [fixReal, div_mul_cancel₀ _ (by norm_num)] at hround
  obtain rfl := hround.eq_of_intCast
  rw [fxClamp_inRange _ (BitVec.le_toInt x) (Int.lt_add_one_iff.1 BitVec.toInt_lt), BitVec.ofInt_toInt] at henc
  exact ⟨_, _, exec_fxDec x s, s.respond_answers_nil .ok _, exec_fxEnc _ _, State.respond_answers_of_eq _ henc⟩

/-- Under SAT the byte is the rounded value, held within the range of a byte (R105). -/
theorem fxClamp_sat_toInt (n : ℤ) : (fxClamp .sat n).2.toInt = max (-128) (min 127 n) := by
  obtain hlo | hlo := lt_or_ge n (-128)
  · rw [fxClamp_below_sat hlo, min_eq_right (by omega), max_eq_left hlo.le]
    rfl
  obtain hhi | hhi := lt_or_ge 127 n
  · rw [fxClamp_above_sat hhi, min_eq_left hhi.le, max_eq_right (by decide)]
    rfl
  · rw [fxClamp_inRange _ hlo hhi, BitVec.toInt_ofInt_eq_self (by decide) (by omega) (by omega), min_eq_right hhi,
      max_eq_right hlo]

/-- Settles O31: rounding and holding within the range are both monotone; the example by evaluation. -/
theorem fxEncIsMonotoneWhenSaturating : Obligations.FxEncIsMonotoneWhenSaturating := by
  refine ⟨fun t a b p q hp hq hpq => ?_, by decide +kernel⟩
  obtain ⟨m, hm, hma⟩ := fxEncode_of_real t .sat hp
  obtain ⟨n, hn, hnb⟩ := fxEncode_of_real t .sat hq
  have hmn : m ≤ n := hm.mono (by linarith) hn
  rw [hma, hnb, fxClamp_sat_toInt, fxClamp_sat_toInt]
  exact max_le_max_left _ (min_le_min_left _ hmn)

end Sys2Proof.Machine
end

section
/-! PROOFS. The framer over byte streams (42_framer.md R123 to R125): a stream is cut into frames by count alone. On this rest
the round trip of a command frame (R128), the telemetry self-check (R131) and the recovery by RX_RESET
(70_reset_and_hazards.md R187). -/

namespace Sys2Proof.Machine

/-! ### Wire fields (20_memory.md R36) and named codes (30_encoding.md R64, R65) -/

/-- Settles O49: the bytes of a field, and the field of two bytes as their concatenation, high byte first. -/
theorem wireFieldsAreLittleEndian : Obligations.WireFieldsAreLittleEndian := by
  refine ⟨fun v => ⟨rfl, le16_lo8_hi8 v⟩, fun lo hi => ?_⟩
  rw [le16_eq_append, toNat_append_eq_add]
  omega

theorem zext16_toNat (b : Byte) : (zext16 b).toNat = b.toNat := by
  have hb := b.isLt
  rw [zext16, BitVec.toNat_setWidth]
  omega

/-- Settles O51: the codes as listed, and the zero extension of a code to its 16-bit field. -/
theorem namedWireCodes : Obligations.NamedWireCodes := by
  refine ⟨rfl, rfl, fun n => ?_, fun n => ?_, fun c => zext16_toNat c.code, rfl, rfl, rfl, rfl, rfl, rfl, rfl,
    fun t => zext16_toNat t.code⟩
  · rw [CommandName.code, BitVec.toNat_ofNat]
    omega
  · rw [CommandName.code, BitVec.toNat_ofNat]
    omega

/-! ### A body with its CRC -/

theorem hi8_append_lo8 (v : Half) : hi8 v ++ lo8 v = v := by
  rw [← le16_eq_append, le16_lo8_hi8]

section
variable (p : CrcParams) (body : List Byte)

theorem withCrc_take : (withCrc p body).take body.length = body := List.take_left

theorem withCrc_getD_low : (withCrc p body).getD body.length 0 = lo8 (crc16 p body) := by simp [withCrc, wire16]

theorem withCrc_getD_high : (withCrc p body).getD (body.length + 1) 0 = hi8 (crc16 p body) := by simp [withCrc, wire16]

/-- The declared CRC of a built frame, high byte above low byte, is the CRC of its body. -/
theorem withCrc_declared :
    (withCrc p body).getD (body.length + 1) 0 ++ (withCrc p body).getD body.length 0 = crc16 p body := by
  rw [withCrc_getD_low, withCrc_getD_high, hi8_append_lo8]

end

/-! ### The report of a frame -/

/-- The opcode field, high byte first (R62, R63). -/
theorem frameOpcode_eq (n : CommandLen) (frame : List Byte) :
    frameOpcode n frame = (if n.bytes = 4 then frame.getD 1 0 else 0) ++ frame.getD 0 0 := by
  cases n with
  | three => exact zext16_eq_append _
  | four => exact le16_eq_append _ _

/-- The report depends on the parameters and the frame as `frameResponse` says. -/
theorem State.reportFrame_response (s : State) (frame : List Byte) :
    (s.reportFrame frame).response = some (frameResponse s.config frame) := by
  rw [State.reportFrame_eq_respond, State.respond_response, frameResponse, validate, ← frameOpcode_eq,
    ← le16_eq_append]
  simp only [decide_eq_true_eq]
  split <;> rfl

/-- The opcode field of a built frame is the opcode, of which three bytes hold the low byte only (R126). -/
theorem frameOpcode_cmdFrame (c : Config) (o : Half) :
    frameOpcode c.commandLen (cmdFrame c o)
      = (match c.commandLen with | .four => o | .three => (o.setWidth 8).setWidth 16) := by
  rw [cmdFrame]
  cases c.commandLen with
  | three =>
    have hlow : o.setWidth 8 = lo8 o := BitVec.setWidth_eq_extractLsb' (by decide)
    rw [hlow]
    rfl
  | four => exact le16_lo8_hi8 o

/-- A built command frame is reported as accepted, with its opcode (R128). -/
theorem frameResponse_cmdFrame (c : Config) (o : Half) :
    frameResponse c (cmdFrame c o) = mkResponse .frameOk (crc16 c.crc (cmdBody c.commandLen o)
      ++ (match c.commandLen with | .four => o | .three => (o.setWidth 8).setWidth 16)) (cmdFrame c o) := by
  have hbody : (cmdBody c.commandLen o).length = c.commandLen.bytes - 2 := cmdBody_length c.commandLen o
  have hn : c.commandLen.bytes - 1 = c.commandLen.bytes - 2 + 1 := by cases c.commandLen <;> rfl
  have htake := withCrc_take c.crc (cmdBody c.commandLen o)
  have hcrc := withCrc_declared c.crc (cmdBody c.commandLen o)
  rw [hbody, ← cmdFrame] at htake hcrc
  rw [frameResponse, ← frameOpcode_eq, frameOpcode_cmdFrame, htake, hn, hcrc, if_pos rfl]

/-! ### The bytes received so far -/

/-- The partial frame: the elements of RXBUF below RXCNT. -/
def State.received (s : State) : List Byte := (List.range s.rxcnt.toNat).map s.readRxbuf

@[simp] theorem State.received_length (s : State) : s.received.length = s.rxcnt.toNat := by simp [State.received]

theorem State.received_eq_nil {s : State} (h : s.rxcnt = 0) : s.received = [] := by
  rw [← List.length_eq_zero_iff, State.received_length, h]
  rfl

/-- A byte below COMMAND_LEN joins the partial frame. -/
theorem State.received_append {s : State} (b : Byte) (h : s.rxcnt.toNat + 1 < s.commandLen) (st : Status) (r : Word32) :
    (((s.writeRxbuf s.rxcnt.toNat b).setRxcnt (s.rxcnt.toNat + 1)).respond st r).received = s.received ++ [b] := by
  have hfour := s.commandLen_le_four
  have hcnt : (BitVec.ofNat 3 (s.rxcnt.toNat + 1)).toNat = s.rxcnt.toNat + 1 := by
    rw [BitVec.toNat_ofNat]
    omega
  have hbefore : (List.range s.rxcnt.toNat).map (s.writeRxbuf s.rxcnt.toNat b).readRxbuf = s.received :=
    List.map_congr_left fun i hi => s.readRxbuf_writeRxbuf_other _ i b (List.mem_range.1 hi).ne
  change (List.range (BitVec.ofNat 3 (s.rxcnt.toNat + 1)).toNat).map (s.writeRxbuf s.rxcnt.toNat b).readRxbuf = _
  rw [hcnt, List.range_succ, List.map_append, hbefore, List.map_singleton,
    s.readRxbuf_writeRxbuf_same _ b (by omega)]

/-! ### A stream of bytes from an empty buffer -/

/-- `t` is what `s`, with an empty buffer, becomes by receiving the bytes `bs`: the bytes after the last full frame are in
the buffer, and the last byte was answered as its position calls for. -/
structure RxAfter (s : State) (bs : List Byte) (t : State) : Prop where
  config : t.config = s.config
  crc : SameCrc s t
  received : t.received = bs.drop (s.commandLen * (bs.length / s.commandLen))
  response : bs ≠ [] → t.response = some (streamResponse s.config bs (bs.length - 1))

theorem rxAfter_nil {s : State} (h : s.rxcnt = 0) (inputs : List Input) : RxAfter s [] { s with inputs := inputs } where
  config := rfl
  crc := rfl
  received := by rw [List.drop_nil]; exact State.received_eq_nil h
  response := fun h => absurd rfl h

/-- The count is the position in the frame. -/
theorem RxAfter.rxcnt {s t : State} {bs : List Byte} (h : RxAfter s bs t) :
    t.rxcnt.toNat = bs.length % s.commandLen := by
  rw [← State.received_length, h.received, List.length_drop, Nat.mod_def]

theorem streamResponse_full {c : Config} {bs : List Byte} {k : ℕ} (h : (k + 1) % c.commandLen.bytes = 0) :
    streamResponse c bs k
      = frameResponse c ((bs.drop (k + 1 - c.commandLen.bytes)).take c.commandLen.bytes) := if_pos h

theorem streamResponse_partial {c : Config} {bs : List Byte} {k : ℕ} (h : (k + 1) % c.commandLen.bytes ≠ 0) :
    streamResponse c bs k = mkResponse .pending (BitVec.ofNat 32 ((k + 1) % c.commandLen.bytes)) [] := if_neg h

/-- The position of a byte alone decides its response; the bytes after it do not matter. -/
theorem streamResponse_append (c : Config) {bs : List Byte} {k : ℕ} (h : k < bs.length) (more : List Byte) :
    streamResponse c (bs ++ more) k = streamResponse c bs k := by
  by_cases hk : (k + 1) % c.commandLen.bytes = 0
  · have hle : c.commandLen.bytes ≤ k + 1 := Nat.le_of_dvd (Nat.succ_pos k) (Nat.dvd_of_mod_eq_zero hk)
    rw [streamResponse_full hk, streamResponse_full hk, List.drop_append_of_le_length (by omega),
      List.take_append_of_le_length (by rw [List.length_drop]; omega)]
  · rw [streamResponse_partial hk, streamResponse_partial hk]

/-- One more byte of the stream. -/
theorem RxAfter.exec_rxByte {s t : State} {bs : List Byte} (h : RxAfter s bs t) (b : Byte) :
    ∃ u, exec (.rxByte b) t = .next u ∧ u.inputs = t.inputs ∧ RxAfter s (bs ++ [b]) u
      ∧ u.response = some (streamResponse s.config (bs ++ [b]) bs.length) := by
  have hlen : t.commandLen = s.commandLen := State.commandLen_congr h.config
  have hcnt := h.rxcnt
  have hdiv := Nat.div_add_mod bs.length s.commandLen
  have hdrop : (bs ++ [b]).drop (s.commandLen * (bs.length / s.commandLen)) = t.received ++ [b] := by
    rw [h.received, List.drop_append_of_le_length (by omega)]
  have hlast : (bs ++ [b]).length = bs.length + 1 := by simp
  obtain hmore | hfull := lt_or_ge (t.rxcnt.toNat + 1) t.commandLen
  · have hmod : (bs.length + 1) % s.commandLen = t.rxcnt.toNat + 1
        ∧ (bs.length + 1) / s.commandLen = bs.length / s.commandLen := by
      obtain hn | hn := s.commandLen_cases <;> rw [hlen, hn] at hmore <;> rw [hn] at hcnt ⊢ <;> omega
    obtain ⟨hpos, hframes⟩ := hmod
    have hresp : streamResponse s.config (bs ++ [b]) bs.length
        = mkResponse .pending (BitVec.ofNat 32 (t.rxcnt.toNat + 1)) [] := by
      rw [← hpos]
      exact streamResponse_partial (hpos.trans_ne (Nat.succ_ne_zero _))
    refine ⟨_, exec_rxByte_append hmore, rfl, ⟨h.config, h.crc, ?_, fun _ => ?_⟩, ?_⟩
    · rw [State.received_append b hmore, hlast, hframes, hdrop]
    · rw [hlast, Nat.add_sub_cancel, hresp]
      rfl
    · rw [hresp]
      rfl
  · have hmod : t.rxcnt.toNat + 1 = s.commandLen ∧ (bs.length + 1) % s.commandLen = 0
        ∧ s.commandLen * ((bs.length + 1) / s.commandLen) = bs.length + 1
        ∧ bs.length + 1 - s.commandLen = s.commandLen * (bs.length / s.commandLen) := by
      obtain hn | hn := s.commandLen_cases <;> rw [hlen, hn] at hfull <;> rw [hn] at hcnt ⊢ <;> omega
    obtain ⟨hlastByte, hpos, hframes, hstart⟩ := hmod
    have hframe : (t.writeRxbuf t.rxcnt.toNat b).frame = t.received ++ [b] :=
      State.frame_writeRxbuf_last (hlastByte.trans hlen.symm) b
    have hresp : streamResponse s.config (bs ++ [b]) bs.length = frameResponse t.config (t.received ++ [b]) := by
      rw [streamResponse_full hpos, ← State.commandLen, hstart, hdrop, h.config, List.take_of_length_le]
      rw [List.length_append, State.received_length, List.length_singleton, hlastByte]
    have hexec := exec_rxByte_complete (b := b) hfull
    rw [hframe] at hexec
    obtain ⟨⟨hcfg, hin⟩, ⟨-, hzero⟩, hcrc⟩ :=
      ((t.writeRxbuf t.rxcnt.toNat b).setRxcnt 0).reportFrame_sameBlock (t.received ++ [b])
    refine ⟨_, hexec, hin, ⟨hcfg.trans h.config, Eq.trans hcrc h.crc, ?_, fun _ => ?_⟩, ?_⟩
    · rw [State.received_eq_nil hzero, hlast, hframes, List.drop_of_length_le hlast.le]
    · rw [State.reportFrame_response, hlast, Nat.add_sub_cancel, hresp]
      rfl
    · rw [State.reportFrame_response, hresp]
      rfl

/-- A stream from an empty buffer, byte by byte: `pre` has been received, `bs` is still to come. -/
theorem RxAfter.run_rxFrame {s t : State} {pre : List Byte} (h : RxAfter s pre t) (bs : List Byte) {rest : List Input}
    (hin : t.inputs = asInputs (rxFrame bs) ++ rest) :
    trace bs.length t
        = (List.range bs.length).map (fun k => some (streamResponse s.config (pre ++ bs) (pre.length + k)))
      ∧ ∃ u, Host.Core.run Sys2Proof.core bs.length t = .next u ∧ u.inputs = rest ∧ RxAfter s (pre ++ bs) u := by
  induction bs generalizing t pre with
  | nil => exact ⟨rfl, t, rfl, hin, by rwa [List.append_nil]⟩
  | cons b bs ih =>
    obtain ⟨u, hu, huin, hafter, hresp⟩ := RxAfter.exec_rxByte (t := { t with inputs := asInputs (rxFrame bs) ++ rest })
      ⟨h.config, h.crc, h.received, h.response⟩ b
    have hstep := (step_encode hin).trans hu
    have hpre : pre ++ b :: bs = pre ++ [b] ++ bs := by simp
    obtain ⟨htrace, v, hv, hvin, hvafter⟩ := ih hafter huin
    rw [List.length_cons, hpre]
    refine ⟨?_, v, (run_succ _ hstep).trans hv, hvin, hvafter⟩
    rw [trace_succ _ hstep, htrace, hresp, List.range_succ_eq_map, List.map_cons, List.map_map, Nat.add_zero,
      streamResponse_append s.config (bs := pre ++ [b]) (by simp)]
    refine congrArg _ (List.map_congr_left fun k _ => ?_)
    simp [Nat.add_assoc, Nat.add_comm 1 k]

/-- Settles O37: the stream starts with nothing received. -/
theorem framingIsByCountAlone : Obligations.FramingIsByCountAlone := by
  intro s bs rest hs
  obtain ⟨htrace, t, ht, hin, hafter⟩ := (rxAfter_nil hs _).run_rxFrame bs rfl
  simp only [List.nil_append, List.length_nil, Nat.zero_add] at htrace hafter
  exact ⟨htrace, t, ht, hin, hafter.rxcnt, hafter.crc⟩

/-! ### Built frames -/

/-- A response on the port, in the terms of R53. -/
theorem State.answers_of_response {s : State} {st : Status} {r : Word32} {out : List Byte} (hfit : out.length ≤ packetLen)
    (h : s.response = some (mkResponse st r out)) : s.Answers st.code r out :=
  ⟨_, h, rfl, rfl, mkResponse_outlen st r out hfit, fun i => mkResponse_out st r out i.val i.isLt⟩

theorem cmdFrame_length_le (c : Config) (o : Half) : (cmdFrame c o).length ≤ packetLen := by
  rw [cmdFrame_length]
  cases c.commandLen <;> decide

/-- A built command frame fed from an empty buffer is accepted at its last byte, with its opcode (R128). -/
theorem run_cmdFrame {s : State} (hs : s.rxcnt = 0) (o : Half) {rest : List Input}
    (hin : s.inputs = asInputs (rxFrame (cmdFrame s.config o)) ++ rest) :
    ∃ t, Host.Core.run Sys2Proof.core s.config.commandLen.bytes s = .next t ∧ t.inputs = rest ∧ t.rxcnt = 0
      ∧ ∃ crc : Half, t.Answers 0x02
        (crc ++ (match s.config.commandLen with | .four => o | .three => (o.setWidth 8).setWidth 16))
        (cmdFrame s.config o) := by
  have hlen := cmdFrame_length s.config o
  have hpos := s.two_lt_commandLen
  have hne : cmdFrame s.config o ≠ [] := List.ne_nil_of_length_pos (hlen ▸ pos_of_gt hpos)
  have hlast : s.config.commandLen.bytes - 1 + 1 = s.config.commandLen.bytes := Nat.sub_add_cancel (pos_of_gt hpos)
  obtain ⟨-, t, ht, htin, hafter⟩ := (rxAfter_nil hs s.inputs).run_rxFrame _ hin
  rw [List.nil_append] at hafter
  rw [hlen] at ht
  have hcnt : t.rxcnt = 0 := by
    apply BitVec.eq_of_toNat_eq
    rw [hafter.rxcnt, hlen]
    exact Nat.mod_self _
  have hresp : t.response = some (frameResponse s.config (cmdFrame s.config o)) := by
    rw [hafter.response hne, hlen, streamResponse_full (by rw [hlast, Nat.mod_self]), hlast, Nat.sub_self, List.drop_zero,
      List.take_of_length_le hlen.le]
  exact ⟨t, ht, htin, hcnt, _, State.answers_of_response (cmdFrame_length_le s.config o)
    (hresp.trans (congrArg some (frameResponse_cmdFrame s.config o)))⟩

/-- Settles O38: CMD_ENC answers the bytes of the frame, and `run_cmdFrame` feeds them back. -/
theorem builtCommandFrameIsAccepted : Obligations.BuiltCommandFrameIsAccepted := by
  intro s o rest hs
  have hbytes := mkResponse_bytes .ok (zext32 16 (frameCrcField (cmdFrame s.config o))) _ (cmdFrame_length_le s.config o)
  obtain ⟨u, hu⟩ := run_cmdFrame
    (s := { s.reportBuilt (cmdFrame s.config o) with inputs := asInputs (rxFrame (cmdFrame s.config o)) ++ rest }) hs o rfl
  refine ⟨_, _, u, exec_cmdEnc o s, rfl, ?_⟩
  rw [hbytes]
  exact ⟨cmdFrame_length _ _, hu⟩

/-- Settles O40: RX_RESET empties the buffer, whatever it held, and the frame is then fed from an empty one. -/
theorem rxResetRealignsFramer : Obligations.RxResetRealignsFramer := by
  intro s o rest
  obtain ⟨-, u, hexec, hempty, -, -, ⟨hcfg, hin⟩, -⟩ :=
    rxResetFlushesPartialFrame { s with inputs := asInputs (rxFrame (cmdFrame s.config o)) ++ rest } 0 0 0
  have hstep : step { s with inputs := asInputs (.rxReset :: rxFrame (cmdFrame s.config o)) ++ rest } = .next u :=
    (step_encode rfl).trans hexec
  obtain ⟨t, ht, htin, hcnt, _, hans⟩ := run_cmdFrame hempty o (rest := rest) (by rw [hin, hcfg])
  rw [hcfg] at ht hans
  exact ⟨t, (run_succ _ hstep).trans ht, htin, hcnt, _, hans⟩

/-- `crc.verify` accepts the twelve bytes of a telemetry frame with the CRC the frame declares, by O21. -/
theorem run_crcVerify_withCrc (s : State) {body : List Byte} (h : body.length = 12) (rest : List Input) :
    ∃ u, Host.Core.run Sys2Proof.core 14 { s with inputs := asInputs (crcVerify ((withCrc s.config.crc body).take 12)
        ((withCrc s.config.crc body).getD 13 0 ++ (withCrc s.config.crc body).getD 12 0)) ++ rest } = .next u
      ∧ u.inputs = rest ∧ ∃ r, u.Answers 0x00 r [] := by
  have hbody := withCrc_take s.config.crc body
  have hdeclared := withCrc_declared s.config.crc body
  obtain ⟨u, hu, hin, -, hans⟩ := crcVerifyAcceptsExactlyCrc16 s body (crc16 s.config.crc body) rest
  rw [h] at hbody hdeclared hu
  rw [if_pos rfl] at hans
  rw [hbody, hdeclared]
  exact ⟨u, hu, hin, _, hans⟩

/-- Settles O39: the bytes TLM_ENC answers are its body with the CRC. -/
theorem builtTelemetryFrameVerifies : Obligations.BuiltTelemetryFrameVerifies := by
  intro s status voltage current speed magX magY magZ gyroX gyroY gyroZ rest
  have hexec := exec_tlmEnc status voltage current speed magX magY magZ gyroX gyroY gyroZ s
  have hlen : (tlmBody status voltage current speed magX magY magZ gyroX gyroY gyroZ).length = 12 := rfl
  generalize tlmBody status voltage current speed magX magY magZ gyroX gyroY gyroZ = body at hexec hlen
  have hframe : (withCrc s.config.crc body).length = 14 := by rw [withCrc_length, hlen]
  have hbytes := mkResponse_bytes .ok (zext32 16 (frameCrcField (withCrc s.config.crc body))) _ hframe.le
  obtain ⟨u, hu⟩ := run_crcVerify_withCrc (s.reportBuilt (withCrc s.config.crc body)) hlen rest
  refine ⟨_, _, u, hexec, rfl, ?_⟩
  rw [hbytes]
  exact ⟨hframe, hu⟩

/-- Settles O36: the frame is that of `State.reportBuilt_withCrc_answers`, its CRC by evaluation. -/
theorem commErrorFrame : Obligations.CommErrorFrame := by
  have hcrc : crc16 State.reset.config.crc (tlmBody 0x0099 0 0 0 0 0 0 0 0 0) = 0x01D5 := by decide +kernel
  have hans := State.reset.reportBuilt_withCrc_answers State.reset.config.crc
    (body := tlmBody 0x0099 0 0 0 0 0 0 0 0 0) (Nat.le_refl 12)
  rw [hcrc] at hans
  exact ⟨rfl, _, exec_tlmEnc .., hans⟩

end Sys2Proof.Machine
end

section
/-! PROOFS. The decimal literals of `fx.enc` (30_encoding.md R70, log entry 16). A literal of magnitude `x` is measured in a
unit `2^u / 2^149` in which the binary32 numbers next to it are integers; `nearestMagnitude` rounds it there, and no binary32
that is finer than the unit comes as near. -/

namespace Sys2Proof.Machine

/-! ### Powers with an integer exponent, on naturals -/

theorem zpow_eq_div_toNat {b : ℚ} (hb : b ≠ 0) (z : ℤ) : b ^ z = b ^ z.toNat / b ^ (-z).toNat := by
  rw [← zpow_natCast, ← zpow_natCast, ← zpow_sub₀ hb]
  congr 1
  omega

theorem two_zpow_le_iff (num : ℕ) {den : ℕ} (hden : 0 < den) (z : ℤ) :
    den * 2 ^ z.toNat ≤ num * 2 ^ (-z).toNat ↔ (2 : ℚ) ^ z ≤ num / den := by
  have hden' : (0 : ℚ) < den := by exact_mod_cast hden
  rw [zpow_eq_div_toNat two_ne_zero, div_le_div_iff₀ (by positivity) hden', mul_comm den]
  exact_mod_cast Iff.rfl

/-- The quotient that `nearestMagnitude` rounds is the literal in the chosen unit. -/
theorem quotient_in_unit (num den : ℕ) (z : ℤ) :
    ((num * 2 ^ (-z).toNat : ℕ) : ℚ) / ((den * 2 ^ z.toNat : ℕ) : ℚ) = num / den / 2 ^ z := by
  rw [zpow_eq_div_toNat two_ne_zero]
  push_cast
  rw [div_div_eq_mul_div, div_mul_eq_mul_div, div_div]

/-! ### The position of the leading one -/

/-- The guess of `nearestMagnitude` is the exponent of the leading one, or one too many. -/
theorem log_guess_bounds {num den : ℕ} (hnum : num ≠ 0) (hden : 0 < den) :
    (2 : ℚ) ^ ((Nat.log2 num : ℤ) - Nat.log2 den - 1) ≤ num / den
      ∧ (num : ℚ) / den < 2 ^ ((Nat.log2 num : ℤ) - Nat.log2 den + 1) := by
  have hlow : (2 : ℚ) ^ ((Nat.log2 num : ℤ) - Nat.log2 den - 1) = 2 ^ Nat.log2 num / 2 ^ (Nat.log2 den + 1) := by
    rw [← zpow_natCast, ← zpow_natCast, ← zpow_sub₀ two_ne_zero]
    congr 1
    omega
  have hhigh : (2 : ℚ) ^ ((Nat.log2 num : ℤ) - Nat.log2 den + 1) = 2 ^ (Nat.log2 num + 1) / 2 ^ Nat.log2 den := by
    rw [← zpow_natCast, ← zpow_natCast, ← zpow_sub₀ two_ne_zero]
    congr 1
    omega
  have hnumlo : (2 : ℚ) ^ Nat.log2 num ≤ num := by exact_mod_cast Nat.log2_self_le hnum
  have hnumhi : (num : ℚ) < 2 ^ (Nat.log2 num + 1) := by exact_mod_cast (Nat.lt_log2_self (n := num))
  have hdenlo : (2 : ℚ) ^ Nat.log2 den ≤ den := by exact_mod_cast Nat.log2_self_le hden.ne'
  have hdenhi : (den : ℚ) < 2 ^ (Nat.log2 den + 1) := by exact_mod_cast (Nat.lt_log2_self (n := den))
  rw [hlow, hhigh]
  exact ⟨div_le_div₀ (Nat.cast_nonneg _) hnumlo (by exact_mod_cast hden) hdenhi.le,
    div_lt_div₀ hnumhi hdenlo (by positivity) (by positivity)⟩

/-- The exponent `nearestMagnitude` works with is that of the leading one. -/
theorem corrected_guess_eq_log {num den : ℕ} (hnum : num ≠ 0) (hden : 0 < den) {guess : ℤ}
    (hguess : guess = (Nat.log2 num : ℤ) - Nat.log2 den) :
    (if decide (den * 2 ^ guess.toNat ≤ num * 2 ^ (-guess).toNat) = true then guess else guess - 1)
      = Int.log 2 ((num : ℚ) / den) := by
  have hpos : (0 : ℚ) < num / den := by
    have : 0 < num := Nat.pos_of_ne_zero hnum
    positivity
  have hle (z : ℤ) : (2 : ℚ) ^ z ≤ num / den ↔ z ≤ Int.log 2 ((num : ℚ) / den) :=
    mod_cast Int.zpow_le_iff_le_log (b := 2) (by decide) hpos
  have hlt (z : ℤ) : (num : ℚ) / den < 2 ^ z ↔ Int.log 2 ((num : ℚ) / den) < z :=
    mod_cast Int.lt_zpow_iff_log_lt (b := 2) (by decide) hpos
  obtain ⟨hlow, hhigh⟩ := log_guess_bounds hnum hden
  rw [← hguess, hle] at hlow
  rw [← hguess, hlt] at hhigh
  simp only [decide_eq_true_eq, two_zpow_le_iff num hden, hle]
  split <;> omega

/-! ### The literal in its unit -/

/-- `x` measured in the unit `2^u / 2^149`; `u = 0` is the unit of the subnormal numbers (R100). -/
def inUnit (x : ℚ) (u : ℕ) : ℚ := x * 2 ^ 149 / 2 ^ u

/-- `n` is `x` rounded in the unit `u`, which is the finest for which a significand of 24 bits is enough. -/
structure RoundsInUnit (x : ℚ) (u n : ℕ) : Prop where
  round : RoundsTo .even (inUnit x u) n
  lt : inUnit x u < 2 ^ 24
  ge : u = 0 ∨ 2 ^ 23 ≤ inUnit x u

theorem inUnit_toNat (x : ℚ) {unit : ℤ} (h : -149 ≤ unit) : inUnit x (unit + 149).toNat = x / 2 ^ unit := by
  have hunit : (2 : ℚ) ^ unit = 2 ^ (unit + 149).toNat / 2 ^ 149 := by
    rw [← zpow_natCast, ← zpow_natCast, ← zpow_sub₀ two_ne_zero]
    congr 1
    omega
  rw [inUnit, hunit, div_div_eq_mul_div]

/-- The unit of `nearestMagnitude` is the finest that 24 bits allow: `2^23` units below the leading one, but not below the
unit of the subnormal numbers. -/
theorem div_unit_bounds {x : ℚ} (hx : 0 < x) {unit : ℤ} (hunit : unit = max (Int.log 2 x - 23) (-149)) :
    x / 2 ^ unit < 2 ^ 24 ∧ (unit = -149 ∨ 2 ^ 23 ≤ x / 2 ^ unit) := by
  have hpow : (0 : ℚ) < 2 ^ unit := by positivity
  constructor
  · rw [div_lt_iff₀ hpow, ← zpow_natCast, ← zpow_add₀ two_ne_zero]
    exact_mod_cast (Int.lt_zpow_iff_log_lt (b := 2) (by decide) hx).2 (by omega)
  · obtain h | h : unit = -149 ∨ unit = Int.log 2 x - 23 := by omega
    · exact .inl h
    · refine .inr ?_
      rw [le_div_iff₀ hpow, ← zpow_natCast, ← zpow_add₀ two_ne_zero]
      exact_mod_cast (Int.zpow_le_iff_le_log (b := 2) (by decide) hx).2 (by omega)

/-- What `nearestMagnitude` computes: the magnitude rounded in its unit, unless that is beyond the finite numbers. -/
theorem nearestMagnitude_eq (num : ℕ) {den : ℕ} (hden : 0 < den) :
    ∃ u n : ℕ, RoundsInUnit ((num : ℚ) / den) u n
      ∧ nearestMagnitude num den = if u * 2 ^ 23 + n < 0x7F800000 then some (u * 2 ^ 23 + n) else none := by
  obtain rfl | hnum := eq_or_ne num 0
  · refine ⟨0, 0, ⟨?_, ?_, .inl rfl⟩, by simp [nearestMagnitude]⟩
    · simp [RoundsTo, inUnit]
    · simp [inUnit]
  have hpos : (0 : ℚ) < num / den := by
    have : 0 < num := Nat.pos_of_ne_zero hnum
    positivity
  obtain ⟨unit, hunit⟩ : ∃ unit, unit = max (Int.log 2 ((num : ℚ) / den) - 23) (-149) := ⟨_, rfl⟩
  have hge : -149 ≤ unit := by omega
  obtain ⟨hlt, hnorm⟩ := div_unit_bounds hpos hunit
  have hround := roundsTo_even_roundMagnitude (num * 2 ^ (-unit).toNat) (den := den * 2 ^ unit.toNat) (by positivity)
  rw [quotient_in_unit, ← inUnit_toNat _ hge] at hround
  rw [← inUnit_toNat _ hge] at hlt hnorm
  refine ⟨(unit + 149).toNat, _, ⟨hround, hlt, hnorm.imp_left (by omega)⟩, ?_⟩
  rw [nearestMagnitude, if_neg hnum]
  simp only [corrected_guess_eq_log hnum hden rfl, ← hunit]

section
variable {x : ℚ} {u n : ℕ} (h : RoundsInUnit x u n)
include h

/-- The rounded significand has at most 24 bits, or is the next power of two. -/
theorem RoundsInUnit.le : n ≤ 2 ^ 24 := by
  obtain ⟨hlo, -⟩ := abs_le.1 h.round.abs_sub_le_half
  have hlt : (n : ℚ) < 2 ^ 24 + 1 := by
    have := h.lt
    push_cast at hlo
    linarith
  exact Nat.lt_succ_iff.1 (by exact_mod_cast hlt)

/-- Above the subnormal numbers the significand has its leading one. -/
theorem RoundsInUnit.two_pow_le (hu : u ≠ 0) : 2 ^ 23 ≤ n := by
  obtain ⟨-, hhi⟩ := abs_le.1 h.round.abs_sub_le_half
  have hge := h.ge.resolve_left hu
  have hlt : (2 : ℚ) ^ 23 < n + 1 := by
    push_cast at hhi
    linarith
  exact Nat.lt_succ_iff.1 (by exact_mod_cast hlt)

end

/-! ### The word of a rounded literal -/

/-- The binary32 with the bits `m` below its sign (R11), as `floatBits?` builds it. -/
def signedWord (neg : Bool) (m : ℕ) : Word32 := BitVec.ofBool neg ++ BitVec.ofNat 31 m

theorem signedWord_toNat (neg : Bool) {m : ℕ} (h : m < 2 ^ 31) : (signedWord neg m).toNat = neg.toNat * 2 ^ 31 + m := by
  rw [signedWord, toNat_append_eq_add, BitVec.toNat_ofBool, BitVec.toNat_ofNat, Nat.mod_eq_of_lt h]

theorem f32Sign_signedWord (neg : Bool) (m : ℕ) : f32Sign (signedWord neg m) = neg := by
  rw [f32Sign, signedWord, BitVec.getLsbD_append]
  simp

theorem msb_signedWord (neg : Bool) (m : ℕ) : (signedWord neg m).msb = neg := by
  rw [BitVec.msb_eq_getLsbD_last]
  exact f32Sign_signedWord neg m

/-- The sign of a literal as a factor. -/
theorem neg_one_pow_toNat (neg : Bool) : (-1 : ℚ) ^ neg.toNat = if neg then -1 else 1 := by
  cases neg <;> simp

/-- The bits of a rounded literal stand for `n` units: a significand of `2^24` carries into the exponent. -/
theorem f32Magnitude_signedWord (neg : Bool) {u n : ℕ} (hn : n ≤ 2 ^ 24) (hu : u ≠ 0 → 2 ^ 23 ≤ n)
    (hfin : u * 2 ^ 23 + n < 0x7F800000) :
    f32Exp (signedWord neg (u * 2 ^ 23 + n)) ≠ 255 ∧ f32Magnitude (signedWord neg (u * 2 ^ 23 + n)) = n * 2 ^ u := by
  have hnat := signedWord_toNat neg (m := u * 2 ^ 23 + n) (by omega)
  have hexp : f32Exp (signedWord neg (u * 2 ^ 23 + n)) = (u * 2 ^ 23 + n) / 2 ^ 23 := by
    rw [f32Exp_eq, hnat]
    omega
  have hfrac : f32Frac (signedWord neg (u * 2 ^ 23 + n)) = n % 2 ^ 23 := by
    rw [f32Frac_eq, hnat]
    omega
  refine ⟨by omega, ?_⟩
  rw [f32Magnitude, hexp, hfrac]
  obtain hsub | hnorm | rfl : n < 2 ^ 23 ∨ (2 ^ 23 ≤ n ∧ n < 2 ^ 24) ∨ n = 2 ^ 24 := by omega
  · obtain rfl : u = 0 := by
      by_contra h
      exact absurd (hu h) (by omega)
    rw [if_pos (by omega), Nat.mod_eq_of_lt hsub, pow_zero, mul_one]
  · have he : (u * 2 ^ 23 + n) / 2 ^ 23 = u + 1 := by omega
    rw [he, if_neg (Nat.succ_ne_zero u), Nat.add_sub_cancel, show 2 ^ 23 + n % 2 ^ 23 = n by omega]
  · have he : (u * 2 ^ 23 + 2 ^ 24) / 2 ^ 23 = u + 2 := by omega
    rw [he, if_neg (Nat.succ_ne_zero _), Nat.add_sub_cancel (m := 1) (n := u + 1), pow_succ]
    ring

/-- A binary32 whose exponent is at least that of the unit is a multiple of the unit; a smaller one has its leading one below
that of a normal number in the unit. -/
theorem f32Magnitude_cases (b : Word32) (u : ℕ) :
    (∃ k : ℕ, f32Magnitude b = k * 2 ^ u) ∨ (u ≠ 0 ∧ f32Magnitude b < 2 ^ 23 * 2 ^ u) := by
  have hfrac : f32Frac b < 2 ^ 23 := by
    rw [f32Frac_eq]
    exact Nat.mod_lt _ (by positivity)
  rw [f32Magnitude]
  by_cases he : f32Exp b = 0
  · rw [if_pos he]
    obtain rfl | hu := eq_or_ne u 0
    · exact .inl ⟨f32Frac b, by rw [pow_zero, mul_one]⟩
    · exact .inr ⟨hu, hfrac.trans_le (Nat.le_mul_of_pos_right _ (by positivity))⟩
  · rw [if_neg he]
    obtain hle | hlt := le_or_gt u (f32Exp b - 1)
    · refine .inl ⟨(2 ^ 23 + f32Frac b) * 2 ^ (f32Exp b - 1 - u), ?_⟩
      rw [mul_assoc, ← pow_add, Nat.sub_add_cancel hle]
    · refine .inr ⟨by omega, ?_⟩
      calc (2 ^ 23 + f32Frac b) * 2 ^ (f32Exp b - 1)
          < 2 ^ 24 * 2 ^ (f32Exp b - 1) := Nat.mul_lt_mul_of_pos_right (by omega) (by positivity)
        _ = 2 ^ 23 * 2 ^ (f32Exp b - 1 + 1) := by ring
        _ ≤ 2 ^ 23 * 2 ^ u := Nat.mul_le_mul_left _ (Nat.pow_le_pow_right (by decide) hlt)

/-- A finite binary32 in the unit `u`: an integer, or below the leading one of a normal number in that unit. -/
theorem inUnit_f32Real {b : Word32} {r : ℚ} (h : f32Real b = some r) (u : ℕ) :
    (∃ k : ℤ, inUnit r u = k) ∨ (u ≠ 0 ∧ |inUnit r u| < 2 ^ 23) := by
  rw [f32Real_eq_magnitude (f32Exp_ne_of_real h)] at h
  obtain rfl := Option.some.inj h
  have hunit : inUnit ((-1) ^ (f32Sign b).toNat * (f32Magnitude b : ℚ) / 2 ^ 149) u
      = (-1) ^ (f32Sign b).toNat * (f32Magnitude b / 2 ^ u) := by
    rw [inUnit, div_mul_cancel₀ _ (by positivity), mul_div_assoc]
  rw [hunit]
  obtain ⟨k, hk⟩ | ⟨hu, hlt⟩ := f32Magnitude_cases b u
  · refine .inl ⟨(-1) ^ (f32Sign b).toNat * k, ?_⟩
    rw [hk]
    push_cast
    rw [mul_div_cancel_right₀ _ (by positivity)]
  · refine .inr ⟨hu, ?_⟩
    rw [abs_mul, abs_pow, abs_neg, abs_one, one_pow, one_mul, abs_of_nonneg (by positivity), div_lt_iff₀ (by positivity)]
    exact_mod_cast hlt

/-! ### No binary32 is nearer -/

/-- The rounded integer is a nearest one, and even when another one is as near. -/
theorem RoundsTo.even_nearest {q : ℚ} {n : ℤ} (h : RoundsTo .even q n) (k : ℤ) :
    |q - n| ≤ |q - k| ∧ (|q - n| = |q - k| → k ≠ n → Even n) := by
  obtain ⟨hhalf, heven⟩ := h
  obtain rfl | hne := eq_or_ne k n
  · exact ⟨le_rfl, fun _ hne => absurd rfl hne⟩
  have hone : (1 : ℚ) ≤ |(n : ℚ) - k| := by exact_mod_cast Int.one_le_abs (sub_ne_zero.2 hne.symm)
  have htriangle := abs_sub_le (n : ℚ) q k
  rw [abs_sub_comm (n : ℚ) q] at htriangle
  exact ⟨by linarith, fun heq _ => heven (by linarith)⟩

/-- Against an integer of the unit, or a number below the leading one, the rounded literal is nearer, or it is even. -/
theorem RoundsInUnit.nearest {x : ℚ} {u n : ℕ} (h : RoundsInUnit x u n) {y : ℚ}
    (hy : (∃ k : ℤ, y = k) ∨ (u ≠ 0 ∧ |y| < 2 ^ 23)) :
    |inUnit x u - n| ≤ |inUnit x u - y| ∧ (|inUnit x u - n| = |inUnit x u - y| → y ≠ n → Even n) := by
  obtain ⟨k, rfl⟩ | ⟨hu, hsmall⟩ := hy
  · obtain ⟨hle, heven⟩ := h.round.even_nearest k
    exact ⟨hle, fun heq hne => (Int.even_coe_nat n).1 (heven heq (by exact_mod_cast hne))⟩
  · obtain ⟨hle, -⟩ := h.round.even_nearest (2 ^ 23)
    have hge := h.ge.resolve_left hu
    have hy := (le_abs_self y).trans_lt hsmall
    have hlt : |inUnit x u - n| < |inUnit x u - y| := by
      have hgap : 0 ≤ inUnit x u - ((2 ^ 23 : ℤ) : ℚ) := by
        push_cast
        linarith
      rw [abs_of_nonneg hgap] at hle
      push_cast at hle
      rw [abs_of_pos (show 0 < inUnit x u - y by linarith)]
      linarith
    exact ⟨hlt.le, fun heq => absurd heq hlt.ne⟩

/-- Distances of signed numbers, measured in the unit with the sign taken out. -/
theorem abs_sub_eq_inUnit {sign : ℚ} (hsign : sign = 1 ∨ sign = -1) (x r : ℚ) (u : ℕ) :
    |sign * x - r| = |inUnit x u - sign * inUnit r u| * (2 ^ u / 2 ^ 149) := by
  have hscale : (0 : ℚ) < 2 ^ u / 2 ^ 149 := by positivity
  have hdiff (y : ℚ) : (inUnit x u - inUnit y u) * (2 ^ u / 2 ^ 149) = x - y := by
    rw [inUnit, inUnit]
    field_simp
  have hneg : inUnit (-r) u = -inUnit r u := by
    rw [inUnit, inUnit]
    ring
  obtain rfl | rfl := hsign
  · rw [one_mul, one_mul, ← hdiff, abs_mul, abs_of_pos hscale]
  · rw [neg_one_mul, neg_one_mul, ← hneg, ← abs_neg, show -(-x - r) = x - -r by ring, ← hdiff, abs_mul, abs_of_pos hscale]

/-! ### The range -/

theorem mul_unit_eq (x : ℚ) (u : ℕ) : x = inUnit x u * 2 ^ u / 2 ^ 149 := by
  rw [inUnit]
  field_simp

/-- A literal is rounded below `2^24` units exactly when it is below the halfway point to it, whose lower neighbour is odd. -/
theorem RoundsTo.lt_two_pow_iff {q : ℚ} {n : ℕ} (h : RoundsTo .even q n) : n < 2 ^ 24 ↔ q < 2 ^ 24 - 1 / 2 := by
  obtain ⟨hlo, hhi⟩ := abs_le.1 h.abs_sub_le_half
  push_cast at hlo hhi
  constructor
  · intro hn
    have hn' : (n : ℚ) + 1 ≤ 2 ^ 24 := by exact_mod_cast hn
    by_contra hq
    have hmax : (n : ℚ) + 1 = 2 ^ 24 := by linarith
    have htie : |q - (n : ℤ)| = 1 / 2 := by
      push_cast
      rw [abs_of_nonneg] <;> linarith
    obtain ⟨k, hk⟩ := And.right h htie
    have hmax' : n + 1 = 2 ^ 24 := by exact_mod_cast hmax
    omega
  · intro hq
    by_contra hn
    have hn' : (2 : ℚ) ^ 24 ≤ n := by exact_mod_cast not_lt.1 hn
    linarith

/-- The bits are those of a finite number exactly below `(2^25 - 1) * 2^103` (log entry 16). -/
theorem RoundsInUnit.finite_iff {x : ℚ} {u n : ℕ} (h : RoundsInUnit x u n) :
    u * 2 ^ 23 + n < 0x7F800000 ↔ x < (2 ^ 25 - 1) * 2 ^ 103 := by
  have hle := h.le
  obtain hu | rfl | hu := lt_trichotomy u 253
  · have hpow : (2 : ℚ) ^ u ≤ 2 ^ 252 := pow_le_pow_right₀ one_le_two (by omega)
    refine iff_of_true (by omega) ?_
    rw [mul_unit_eq x u]
    calc inUnit x u * 2 ^ u / 2 ^ 149 ≤ 2 ^ 24 * 2 ^ 252 / 2 ^ 149 := by gcongr; exact h.lt.le
      _ < (2 ^ 25 - 1) * 2 ^ 103 := by norm_num
  · have hbits : 253 * 2 ^ 23 + n < 0x7F800000 ↔ n < 2 ^ 24 := by omega
    rw [hbits, h.round.lt_two_pow_iff, inUnit, div_lt_iff₀ (by positivity)]
    constructor <;> intro hx <;> linarith
  · have hge := h.ge.resolve_left (by omega)
    have hn := h.two_pow_le (by omega)
    have hpow : (2 : ℚ) ^ 254 ≤ 2 ^ u := pow_le_pow_right₀ one_le_two hu
    refine iff_of_false (by omega) (not_lt.2 ?_)
    rw [mul_unit_eq x u]
    calc (2 ^ 25 - 1) * 2 ^ 103 ≤ (2 : ℚ) ^ 23 * 2 ^ 254 / 2 ^ 149 := by norm_num
      _ ≤ inUnit x u * 2 ^ u / 2 ^ 149 := by gcongr

/-! ### The literal -/

/-- The quotient that stands for the magnitude of a literal. -/
theorem literal_magnitude (digits : ℕ) (exp10 : ℤ) :
    ((digits * 10 ^ exp10.toNat : ℕ) : ℚ) / ((10 ^ (-exp10).toNat : ℕ) : ℚ) = digits * (10 : ℚ) ^ exp10 := by
  rw [zpow_eq_div_toNat (by norm_num) exp10]
  push_cast
  rw [mul_div_assoc]

theorem assembleWords_decimal (neg : Bool) (digits : ℕ) (exp10 : ℤ) :
    assembleWords (.fxEnc (.decimal neg digits exp10))
      = (nearestMagnitude (digits * 10 ^ exp10.toNat) (10 ^ (-exp10).toNat)).map
          fun m => [opWord 0x20 (signedWord neg m) 0 0] := by
  rw [assembleWords]
  change Option.map _ (Option.map _ (Option.map _ _)) = _
  rw [Option.map_map, Option.map_map]
  rfl

/-- The word of a rounded literal carries a nearest binary32, and an even one when another is as near. -/
theorem RoundsInUnit.signedWord_nearest {x : ℚ} {u n : ℕ} (h : RoundsInUnit x u n) (hfin : u * 2 ^ 23 + n < 0x7F800000)
    (neg : Bool) {v : ℚ} (hv : v = (if neg then -1 else 1) * x) :
    ∃ q, f32Real (signedWord neg (u * 2 ^ 23 + n)) = some q
      ∧ ∀ b r, f32Real b = some r → |v - q| ≤ |v - r|
        ∧ (|v - q| = |v - r| → r ≠ q → (signedWord neg (u * 2 ^ 23 + n)).getLsbD 0 = false) := by
  obtain ⟨sign, hsign⟩ : ∃ sign : ℚ, sign = if neg then -1 else 1 := ⟨_, rfl⟩
  have hsign' : sign = 1 ∨ sign = -1 := by cases neg <;> simp [hsign]
  have hsq : sign * sign = 1 := by obtain rfl | rfl := hsign' <;> norm_num
  obtain ⟨hexp, hmag⟩ := f32Magnitude_signedWord neg h.le h.two_pow_le hfin
  have hreal := f32Real_eq_magnitude hexp
  rw [f32Sign_signedWord, neg_one_pow_toNat, ← hsign, hmag] at hreal
  refine ⟨_, hreal, fun b r hr => ?_⟩
  generalize hq : sign * ((n * 2 ^ u : ℕ) : ℚ) / 2 ^ 149 = q
  have hqn : sign * inUnit q u = n := by
    rw [← hq, inUnit]
    push_cast
    field_simp
    linear_combination (n : ℚ) * hsq
  have hy : (∃ k : ℤ, sign * inUnit r u = k) ∨ (u ≠ 0 ∧ |sign * inUnit r u| < 2 ^ 23) := by
    obtain ⟨k, hk⟩ | ⟨hu, hlt⟩ := inUnit_f32Real hr u
    · rw [hk]
      obtain rfl | rfl := hsign'
      · exact .inl ⟨k, one_mul _⟩
      · exact .inl ⟨-k, by push_cast; ring⟩
    · refine .inr ⟨hu, ?_⟩
      obtain rfl | rfl := hsign' <;> simpa using hlt
  obtain ⟨hle, heven⟩ := h.nearest hy
  have hscale : (0 : ℚ) < 2 ^ u / 2 ^ 149 := by positivity
  rw [hv, ← hsign, abs_sub_eq_inUnit hsign' x q u, abs_sub_eq_inUnit hsign' x r u, hqn, mul_left_inj' hscale.ne']
  refine ⟨mul_le_mul_of_nonneg_right hle hscale.le, fun heq hne => ?_⟩
  have hne' : sign * inUnit r u ≠ n := by
    intro hrn
    have hunits : inUnit r u = inUnit q u := by
      linear_combination sign * (hrn.trans hqn.symm) - (inUnit r u - inUnit q u) * hsq
    exact hne (by rw [mul_unit_eq r u, hunits, ← mul_unit_eq q u])
  obtain ⟨k, hk⟩ := heven heq hne'
  rw [BitVec.getLsbD, signedWord_toNat neg (by omega), Nat.testBit_zero, decide_eq_false]
  omega

/-- Settles O54: the literal is rounded in its unit; there no binary32 is nearer, and the bits are finite exactly below the
stated bound. -/
theorem decimalLiteralIsNearestBinary32 : Obligations.DecimalLiteralIsNearestBinary32 := by
  intro neg digits exp10 v
  obtain ⟨u, n, hround, hbits⟩ :=
    nearestMagnitude_eq (digits * 10 ^ exp10.toNat) (den := 10 ^ (-exp10).toNat) (by positivity)
  rw [literal_magnitude] at hround
  have hv : v = (if neg then -1 else 1) * (digits * (10 : ℚ) ^ exp10) := mul_assoc _ _ _
  have habs : |v| = digits * (10 : ℚ) ^ exp10 := by
    rw [hv, abs_mul, abs_of_nonneg (show (0 : ℚ) ≤ digits * (10 : ℚ) ^ exp10 by positivity)]
    cases neg <;> simp
  rw [habs, assembleWords_decimal, hbits, ← not_lt, ← hround.finite_iff]
  constructor
  · intro hfin
    obtain ⟨q, hreal, hnearest⟩ := hround.signedWord_nearest hfin neg hv
    exact ⟨_, q, by rw [if_pos hfin, Option.map_some], hreal, msb_signedWord neg _, hnearest⟩
  · intro hinf
    rw [if_neg hinf, Option.map_none]

end Sys2Proof.Machine
end
